-- ==== Sys2Proof/Word.lean ====
section
/-! DEFINITION. The words that cross a port or a link: a byte and its multiples. -/

namespace Sys2Proof

/-- One byte of a coordination port (R184) or of the display link. -/
abbrev Byte := BitVec 8
/-- A two-byte parameter. -/
abbrev W16 := BitVec 16
/-- A three-byte parameter. -/
abbrev W24 := BitVec 24
/-- A four-byte parameter, or the 32 payload bits of a link word. -/
abbrev W32 := BitVec 32

end Sys2Proof
end

