-- ==== Sys2Proof/Config.lean ====
section
/-! DEFINITION. The constants of the BC-48. The spec leaves no value of the part to an implementation, so this file
holds no free value. -/

namespace Sys2Proof.Config

/-- Notices a port's queue holds at most (R193). -/
def queueCapacity : Nat := 16
/-- Tickets a head's list holds at most (R41). -/
def listCapacity : Nat := 4
/-- Pull records the store holds at most (R144). -/
def storeCapacity : Nat := 128
/-- Values a capture takes in at most on one channel (R91, R96). -/
def captureCap : Nat := 4095
/-- Wires of a strip at most (R1). -/
def maxStripWires : Nat := 8192
/-- Upper bound of every DEF, USI and PF (R92). -/
def metricMax : Nat := 65535
/-- Columns and rows of the panel (R168). -/
def columns : Nat := 48
/-- Rows of the panel (R168). -/
def rows : Nat := 20
/-- Rows the banner covers (R179). -/
def bannerRows : Nat := 2
/-- The guard distance after RST, in µm (R59, R64). -/
def resetGuard : Nat := 8000
/-- The absence timeout after RST, in µs (R79, R98). -/
def resetTimeout : Nat := 1020
/-- Least and greatest decimated value (R85). -/
def valueMin : Int := -8388608
/-- Greatest decimated value (R85). -/
def valueMax : Int := 8388607

end Sys2Proof.Config
end

