-- ==== Sys2Proof/Syntax.lean ====
section
/-! DEFINITION. The commands and events of the BC-48: one constructor of `Instr` for each row of the table of
operations. Parameters stand as the bytes a controller sends carry them. -/

namespace Sys2Proof

/-- The four coordination ports (chapter 11). -/
inductive PortId where
  | ha | hb | cc | mh
deriving DecidableEq, Repr

/-- The two bonding heads. -/
inductive Head where
  | a | b
deriving DecidableEq, Repr

/-- The three sensor links (R66). -/
inductive Link where
  | slA | slB | slP
deriving DecidableEq, Repr

/-- The commands that a command byte can name (R186). -/
inductive Cmd where
  | stat | note | wtxt
  | run | halt | next | claim | cancel | arm | disarm | freset | clrstop | hstat
  | pload | pwire | limset | psel | pfree | skipu | maprd | maptake | guard | chcfg
  | splan | ptake | hold | release | setcode | rgdef | rgdel | restart
  | magld | magul | feed | zone | zrel | stow | clamp | cldone | pstart | pend | pvoid | mgrd
deriving DecidableEq, Repr

/-- The sixteen parameter bytes of LIMSET that describe one phase (R13). -/
structure PhaseWords where
  defLo : W16
  defHi : W16
  mDef : W16
  usiLo : W16
  usiHi : W16
  mUsi : W16
  durMin : W16
  durMax : W16
deriving DecidableEq, Repr

/-- The levels of the input lines at the release of RST, which the values after RST depend on
(R115, R166, R183, R184). -/
structure LineLevels where
  holdin : Bool
  pnlrdy : Bool
  winA : Bool
  winB : Bool
  selHA : Bool
  selHB : Bool
  selCC : Bool
  selMH : Bool
deriving DecidableEq, Repr

/-- One step of the part: a command taken, a byte or a word completed, an edge of a line, a serve of the arbiter. A
command's row names the port that carries it and the values of its parameter bytes. -/
inductive Instr where
  | stat (p : PortId)
  | note (p : PortId) (k : Byte)
  | wtxt (p : PortId) (index column row attr : Byte)
  | wtxtTextByte (p : PortId) (ch : Byte)
  | pwire (p : PortId) (slot : Byte)
  | pwireGroup (p : PortId) (tier : Byte) (x : W16) (limitSet profile flags : Byte)
  | unknownCommand (p : PortId) (value : Byte)
  | readoutByte (p : PortId) (dataIn : Byte)
  | selectRelease (p : PortId) (bits : Nat)
  | run (p : PortId) (count : W16) (traversal fixedUnit order delivery depth : Byte)
  | halt (p : PortId)
  | next (p : PortId)
  | claim (p : PortId) (unit : Byte) (wire : W16)
  | arbiterServe
  | fillServe
  | cancel (p : PortId) (ticket : Byte)
  | freset (p : PortId)
  | hstat (p : PortId)
  | arm (p : PortId) (ticket : Byte)
  | disarm (p : PortId)
  | clrstop (p : PortId)
  | pload (p : PortId) (slot : Byte) (label : W16) (units : Byte) (pitch wires : W16) (tiers flags : Byte)
  | limset (p : PortId) (index : Byte) (ball stitch : PhaseWords) (pullMin : W16)
  | psel (p : PortId) (slot : Byte)
  | pfree (p : PortId) (slot : Byte)
  | skipu (p : PortId) (unit : Byte)
  | maprd (p : PortId) (first count : Byte)
  | maptake (p : PortId)
  | guard (p : PortId) (g : W16)
  | chcfg (p : PortId) (channel flags d s : Byte) (o : W24) (metric : Byte) (t : W24) (n : Byte) (timeout : W16)
  | splan (p : PortId) (period limit count : Byte) (units : Vector Byte 8)
  | ptake (p : PortId) (k : Byte)
  | hold (p : PortId)
  | release (p : PortId) (mask : Byte) (code : W16)
  | setcode (p : PortId) (old new : W16)
  | rgdef (p : PortId) (index owner kind left top width height attr : Byte)
  | rgdel (p : PortId) (index : Byte)
  | restart (p : PortId)
  | mgrd (p : PortId) (side : Byte)
  | magld (p : PortId) (side : Byte) (id : W16) (count : Byte) (occupied : Vector Byte 7)
  | magul (p : PortId) (side : Byte)
  | feed (p : PortId) (slot : Byte) (serial : W32)
  | zone (p : PortId) (mask : Vector Byte 8)
  | zrel (p : PortId)
  | stow (p : PortId) (slot : Byte)
  | clamp (p : PortId)
  | cldone (p : PortId)
  | pstart (p : PortId) (id : W16)
  | pend (p : PortId) (id : W16) (mode : Byte)
  | pvoid (p : PortId) (id : W16)
  | windowOpen (h : Head)
  | windowClose (h : Head)
  | holdinActive
  | holdinInactive
  | pnlrdyRise
  | pnlrdyFall
  | dlByteSent
  | rst (lines : LineLevels)
  | addressWord (l : Link) (payload : W32)
  | dataWord (l : Link) (payload : W32)
  | framingError (l : Link)
  | absenceExpiry (l : Link)
  | commandByte (p : PortId) (c : Cmd)
  | lineReturnsToRest (l : Link)
deriving DecidableEq, Repr

end Sys2Proof
end

