-- ==== Sys2Proof/WellFormed.lean ====
section
/-! DEFINITION. Which terms of `Instr` a row of the table stands for. The widths of the parameters are in the types;
what is left is what a type does not say: UNKNOWN_COMMAND carries a value that names no command, COMMAND_BYTE a command
that is not taken at its command byte, and SELECT_RELEASE the count of bits of an unfinished byte. -/

namespace Sys2Proof

/-- The command byte of a command, from the heading of its entry. -/
def Cmd.code : Cmd → Byte
  | .stat => 0x01 | .note => 0x02 | .wtxt => 0x03
  | .run => 0x10 | .halt => 0x11 | .next => 0x12 | .claim => 0x13 | .cancel => 0x14 | .arm => 0x15 | .disarm => 0x16
  | .freset => 0x17 | .clrstop => 0x18 | .hstat => 0x19
  | .pload => 0x20 | .pwire => 0x21 | .limset => 0x22 | .psel => 0x23 | .pfree => 0x24 | .skipu => 0x25
  | .maprd => 0x26 | .maptake => 0x27 | .guard => 0x28 | .chcfg => 0x29 | .splan => 0x2A | .ptake => 0x2B
  | .hold => 0x2C | .release => 0x2D | .setcode => 0x2E | .rgdef => 0x2F | .rgdel => 0x30 | .restart => 0x3F
  | .magld => 0x40 | .magul => 0x41 | .feed => 0x42 | .zone => 0x43 | .zrel => 0x44 | .stow => 0x45
  | .clamp => 0x46 | .cldone => 0x47 | .pstart => 0x48 | .pend => 0x49 | .pvoid => 0x4A | .mgrd => 0x4B

/-- Every command of the part (R186). -/
def Cmd.all : List Cmd :=
  [.stat, .note, .wtxt, .run, .halt, .next, .claim, .cancel, .arm, .disarm, .freset, .clrstop, .hstat,
   .pload, .pwire, .limset, .psel, .pfree, .skipu, .maprd, .maptake, .guard, .chcfg, .splan, .ptake, .hold, .release,
   .setcode, .rgdef, .rgdel, .restart, .magld, .magul, .feed, .zone, .zrel, .stow, .clamp, .cldone, .pstart, .pend,
   .pvoid, .mgrd]

/-- The command that a command byte names, if any (R187). -/
def Cmd.ofCode (b : Byte) : Option Cmd := Cmd.all.find? (fun c => c.code == b)

/-- The parameter bytes of an atomic command, from its entry; 0 for the two streaming commands, which have none of a
fixed number. -/
def Cmd.paramCount : Cmd → Nat
  | .note | .cancel | .arm | .psel | .pfree | .skipu | .ptake | .rgdel | .magul | .stow | .mgrd => 1
  | .maprd | .guard | .pstart | .pvoid => 2
  | .claim | .release | .pend => 3
  | .setcode => 4
  | .feed => 5
  | .run => 7
  | .rgdef | .zone => 8
  | .pload => 10
  | .splan | .magld => 11
  | .chcfg => 14
  | .limset => 35
  | .stat | .wtxt | .pwire | .halt | .next | .disarm | .freset | .clrstop | .hstat | .maptake | .hold | .restart
  | .zrel | .clamp | .cldone => 0

/-- The two streaming commands (R187). -/
def Cmd.streaming : Cmd → Bool
  | .wtxt | .pwire => true
  | _ => false

/-- A command that is taken at its command byte: atomic, with no parameter bytes (R188). -/
def Cmd.takenAtOnce (c : Cmd) : Bool := !c.streaming && c.paramCount == 0

/-- The term stands for a step of the table. -/
def Instr.wellFormed : Instr → Bool
  | .unknownCommand _ v => (Cmd.ofCode v).isNone
  | .commandByte _ c => !c.takenAtOnce
  | .selectRelease _ bits => decide (bits ≤ 7)
  | _ => true

end Sys2Proof
end

