-- ==== Sys2Proof/Decode.lean ====
section
/-! DEFINITION. The table of operations gives no row any bits, so no word spells a command. -/

namespace Sys2Proof

/-- The command that a word of the table's bits spells: none, for the table gives its rows no bits. -/
def decodeTableWord (_nbits _w : Nat) : Option Instr := none

end Sys2Proof
end

