-- ==== Sys2Proof/Machine/State.lean ====
section
/-! DEFINITION. The state of the BC-48, block by block, as plain data, and the state after RST. -/

namespace Sys2Proof.Machine

/-- One thing for each head. -/
structure PerHead (α : Type) where
  a : α
  b : α
deriving DecidableEq, Repr

/-- One thing for each coordination port. -/
structure PerPort (α : Type) where
  ha : α
  hb : α
  cc : α
  mh : α
deriving DecidableEq, Repr

/-- One thing for each sensor link. -/
structure PerLink (α : Type) where
  slA : α
  slB : α
  slP : α
deriving DecidableEq, Repr

/-- The five conditioning channels (R80). -/
inductive ChanId where
  | az | aus | bz | bus | pf
deriving DecidableEq, Repr

/-- One thing for each channel. -/
structure PerChan (α : Type) where
  az : α
  aus : α
  bz : α
  bus : α
  pf : α
deriving DecidableEq, Repr

/-! ### Program Store -/

/-- The states of a program slot that holds a program (R1); an EMPTY slot holds none. -/
inductive SlotState where
  | loading | ready | inUse
deriving DecidableEq, Repr

/-- One wire entry of a wire table (R1). -/
structure WireEntry where
  tier : Nat
  x : Nat
  limitSet : Nat
  profile : Nat
  pullEligible : Bool
deriving DecidableEq, Repr

/-- The header and the wire table of a slot that is not EMPTY (R1). -/
structure Program where
  state : SlotState
  label : W16
  units : Nat
  pitch : Nat
  wires : Nat
  tiers : Nat
  exportRequired : Bool
  table : List WireEntry
deriving DecidableEq, Repr

/-- The fields of a limit set for one phase (R12). -/
structure PhaseLimits where
  defLo : Nat
  defHi : Nat
  mDef : Nat
  usiLo : Nat
  usiHi : Nat
  mUsi : Nat
  durMin : Nat
  durMax : Nat
deriving DecidableEq, Repr

/-- A limit set (R12). -/
structure LimitSet where
  loaded : Bool
  ball : PhaseLimits
  stitch : PhaseLimits
  pullMin : Nat
deriving DecidableEq, Repr

/-- The Program Store: four slots (none is EMPTY), the program selection and sixteen limit sets. -/
structure ProgramStore where
  slots : Vector (Option Program) 4
  selection : Option Nat
  limits : Vector LimitSet 16
deriving DecidableEq, Repr

/-! ### Strip Map -/

/-- The phase of a window (R100). -/
inductive Phase where
  | ball | stitch
deriving DecidableEq, Repr

/-- The verdicts of a bond, from better to worse (R21, R25). -/
inductive Verdict where
  | good | marginal | unjudged | fail
deriving DecidableEq, Repr

/-- The causes of a verdict (R20, R21). -/
inductive Cause where
  | none | nonstick | overcrush | usAbnormal | time | noLimits | abandoned | noData | link | disabled
deriving DecidableEq, Repr

/-- The record of one judged bond (R21). -/
structure BondResult where
  verdict : Verdict
  cause : Cause
  DEF : Nat
  USI : Nat
  DUR : Nat
deriving DecidableEq, Repr

/-- The state of a wire slot, with the fields present in it (R20): OPEN, ISSUED and FIRST with owning head and ticket
number, CLOSED with close verdict and fail cause, SKIPPED. -/
inductive SlotPhase where
  | opened
  | issued (owner : Head) (number : Nat)
  | first (owner : Head) (number : Nat) (ball : BondResult)
  | closed (ball : BondResult) (stitch : Option BondResult) (verdict : Verdict) (cause : Cause)
  | skipped
deriving DecidableEq, Repr

/-- A wire slot of the map (R20). -/
structure WireSlot where
  phase : SlotPhase
  pullSelected : Bool
deriving DecidableEq, Repr

/-- The outcome of a unit (R27). -/
inductive UnitOutcome where
  | good | suspect | reject | skipped
deriving DecidableEq, Repr

/-- The state of a unit; DONE carries its outcome, and a SKIPPED unit has outcome SKIPPED (R27, R29, R30). -/
inductive UnitState where
  | active
  | skipped
  | done (outcome : UnitOutcome)
deriving DecidableEq, Repr

/-- A unit record (R27) with the slots of its wires. `unclosed` holds one count for each tier 0..3. -/
structure UnitRec where
  state : UnitState
  unclosed : List Nat
  good : Nat
  marginal : Nat
  unjudged : Nat
  fail : Nat
  skipped : Nat
  slots : List WireSlot
deriving DecidableEq, Repr

/-- The state totals of the map header (R19). -/
structure Totals where
  opened : Nat
  issued : Nat
  first : Nat
  closed : Nat
  skipped : Nat
deriving DecidableEq, Repr

/-- The strip map: header (R19) and one unit record per unit. -/
structure StripMap where
  serial : W32
  program : Nat
  exportTaken : Bool
  complete : Bool
  totals : Totals
  unitsFinished : Nat
  units : List UnitRec
deriving DecidableEq, Repr

/-! ### Ticket Issuer -/

/-- Why a feed stopped (R38). -/
inductive StopReason where
  | fail | touch
deriving DecidableEq, Repr

/-- The state of a feed, STOPPED with its reason (R38). -/
inductive FeedState where
  | off
  | running
  | stopped (reason : StopReason)
deriving DecidableEq, Repr

/-- The order of units in a scan (R38). -/
inductive Traversal where
  | ascend | descend | fixed
deriving DecidableEq, Repr

/-- Where a scan starts relative to the cursor (R38). -/
inductive ScanOrder where
  | sequential | stride
deriving DecidableEq, Repr

/-- How tickets are delivered (R38). -/
inductive Delivery where
  | pull | push
deriving DecidableEq, Repr

/-- The name of a wire slot: unit and wire. -/
structure SlotId where
  unit : Nat
  wire : Nat
deriving DecidableEq, Repr

/-- A ticket (R40). -/
structure Ticket where
  number : Nat
  unit : Nat
  wire : Nat
  tier : Nat
  x : Nat
  absX : Nat
  limitSet : Nat
  profile : Nat
deriving DecidableEq, Repr

/-- A taken NEXT or CLAIM that waits for the arbiter (R53, R188). -/
inductive Request where
  | next
  | claim (unit wire : Nat)
deriving DecidableEq, Repr

/-- The feed of one head (R38), with the head's waiting NEXT or CLAIM (R53) and its fill request (R51). -/
structure Feed where
  state : FeedState
  count : Nat
  traversal : Traversal
  fixedUnit : Nat
  order : ScanOrder
  delivery : Delivery
  depth : Nat
  cursor : Option SlotId
  tickets : List Ticket
  nextNumber : Nat
  latch : Bool
  request : Option Request
  fill : Bool
deriving DecidableEq, Repr

/-- The Ticket Issuer (R38, R53, R59). -/
structure Issuer where
  feeds : PerHead Feed
  guard : Nat
  lastServed : Head
deriving DecidableEq, Repr

/-! ### Sensor Receivers -/

/-- The channel kind that data words are routed to (R66). -/
inductive Selection where
  | none | z | us | force
deriving DecidableEq, Repr

/-- How a data word's payload is divided (R66). -/
inductive Packing where
  | single | pair | split
deriving DecidableEq, Repr

/-- A complete good link word (R68). -/
structure LinkWord where
  isAddress : Bool
  payload : W32
deriving DecidableEq, Repr

/-- A Sensor Receiver (R66). `atRest`: the line has been seen at its resting level (R67). `timer`: none is stopped,
otherwise the timeout in µs that governs the present run (R76). -/
structure Receiver where
  assembling : List Bool
  holding : Option LinkWord
  atRest : Bool
  selection : Selection
  packing : Packing
  present : Bool
  timer : Option Nat
  timeout : Nat
deriving DecidableEq, Repr

/-! ### Conditioning Engine -/

/-- A channel: configuration, decimator accumulator and touch run counter (R80). On P-F nothing reads `t`, `n` and
`run`. -/
structure Channel where
  enabled : Bool
  d : Nat
  s : Nat
  o : Int
  metric : Nat
  t : Nat
  n : Nat
  sum : Int
  count : Nat
  run : Nat
deriving DecidableEq, Repr

/-! ### Bond Capture -/

/-- Why a window is stray (R100). -/
inductive StrayReason where
  | notArmed | cancelled | freset | clamp
deriving DecidableEq, Repr

/-- The part of a window capture that each channel has (R90). -/
structure CapturePart where
  enabledAtOpen : Bool
  n : Nat
  long : Bool
  absence : Bool
  framing : Bool
deriving DecidableEq, Repr

/-- The armed ticket and its phase (R100). The ticket stands whole: tickets of one list differ in slot and number, and
the armed ticket is cleared when it leaves the list. -/
structure Armed where
  ticket : Ticket
  phase : Phase
deriving DecidableEq, Repr

/-- The binding of a window capture (R100): a silenced capture has no binding (R113). A STRAY one keeps the ticket
number and phase its notice will carry (R111). -/
inductive Binding where
  | bound (ticket : Ticket) (phase : Phase)
  | stray (reason : StrayReason) (number : Nat) (phase : Phase)
  | silenced
deriving DecidableEq, Repr

/-- A window capture (R90, R100). -/
structure Window where
  binding : Binding
  z : CapturePart
  us : CapturePart
  z0 : Option Int
  zmin : Option Int
  usSum : Nat
deriving DecidableEq, Repr

/-- The last committed result of a head (R100). -/
structure LastResult where
  number : Nat
  phase : Phase
  verdict : Verdict
deriving DecidableEq, Repr

/-- The Bond Capture of a head (R100), with the level of its WIN line (R115). -/
structure BondCapture where
  armed : Option Armed
  window : Option Window
  last : Option LastResult
  win : Bool
deriving DecidableEq, Repr

/-! ### Position Tracker -/

/-- The state of an input slot (R119). -/
inductive InSlot where
  | empty | full | fed
deriving DecidableEq, Repr

/-- The pull outcome of a stowed strip (R132). -/
inductive PullOutcome where
  | none | pass | fail
deriving DecidableEq, Repr

/-- The contents of a STOWED slot (R120). -/
structure Stowed where
  serial : W32
  good : Nat
  suspect : Nat
  reject : Nat
  skipped : Nat
  pull : PullOutcome
deriving DecidableEq, Repr

/-- The state of an output slot (R120). -/
inductive OutSlot where
  | empty
  | blocked
  | stowed (contents : Stowed)
deriving DecidableEq, Repr

/-- The input table (R119). -/
structure InTable where
  id : W16
  slots : List InSlot
deriving DecidableEq, Repr

/-- The output table (R120). -/
structure OutTable where
  id : W16
  slots : List OutSlot
deriving DecidableEq, Repr

/-- The state of a pull status (R130). -/
inductive PullState where
  | none | opened | closed
deriving DecidableEq, Repr

/-- The pull status of a strip (R130). -/
structure PullStatus where
  state : PullState
  outstanding : Nat
  passed : Nat
  failed : Nat
deriving DecidableEq, Repr

/-- The binding of a strip: absent at FEED, then WAITING_PROGRAM or BOUND to a program slot (R117). -/
inductive StripBinding where
  | absent
  | waiting
  | bound (slot : Nat)
deriving DecidableEq, Repr

/-- A strip record (R117). The skip mask stands as the eight bytes ZONE carries (R126). -/
structure StripRecord where
  serial : W32
  source : Nat
  binding : StripBinding
  skipMask : Option (Vector Byte 8)
  sampled : Option Bool
  outcomes : Option (List UnitOutcome)
  pull : Option PullStatus
deriving DecidableEq, Repr

/-- The clamp state (R133). -/
inductive Clamp where
  | none | requested | granted
deriving DecidableEq, Repr

/-- The Position Tracker. -/
structure Tracker where
  input : Option InTable
  output : Option OutTable
  feed : Option StripRecord
  zone : Option StripRecord
  pull : Option StripRecord
  clamp : Clamp
deriving DecidableEq, Repr

/-! ### Pull Record Store -/

/-- The result of a pull (R97). -/
inductive PullResult where
  | pass | failLow | failMode | unjudged
deriving DecidableEq, Repr

/-- The state of a pull record; DONE carries PF, the break mode code 1..6 and the result (R145). -/
inductive RecordState where
  | pending
  | testing
  | done (PF : Nat) (mode : Nat) (result : PullResult)
  | void
deriving DecidableEq, Repr

/-- A pull record (R145). -/
structure PullRecord where
  id : Nat
  serial : W32
  unit : Nat
  wire : Nat
  head : Head
  ballVerdict : Verdict
  ballDEF : Nat
  stitchVerdict : Verdict
  stitchDEF : Nat
  limitSet : Nat
  state : RecordState
deriving DecidableEq, Repr

/-- The pull capture on P-F (R96). -/
structure PullCapture where
  n : Nat
  long : Bool
  absence : Bool
  framing : Bool
  vmax : Option Int
deriving DecidableEq, Repr

/-- An entry of the selection list (R143). -/
structure SelEntry where
  unit : Nat
  wire : Nat
  head : Option Head
deriving DecidableEq, Repr

/-- The Pull Record Store (R139, R143, R144). -/
structure PullStore where
  period : Nat
  limit : Nat
  units : List Nat
  counter : Nat
  records : List PullRecord
  nextId : Nat
  capture : Option PullCapture
  selection : List SelEntry
deriving DecidableEq, Repr

/-! ### Hold Control -/

/-- The hold reasons (R156). -/
inductive Reason where
  | operator | line | pullFail | restart
deriving DecidableEq, Repr

/-- A set of hold reasons. -/
structure Reasons where
  operator : Bool
  line : Bool
  pullFail : Bool
  restart : Bool
deriving DecidableEq, Repr

/-- Hold Control (R156), with the level of HOLDIN (R159). -/
structure Hold where
  reasons : Reasons
  enable : Bool
  code : W16
  holdin : Bool
deriving DecidableEq, Repr

/-! ### Screen Composer -/

/-- The attribute of a cell (R168). -/
structure Attr where
  colour : BitVec 3
  blink : Bool
deriving DecidableEq, Repr

/-- A cell of the store (R168). -/
structure Cell where
  ch : Byte
  attr : Attr
deriving DecidableEq, Repr

/-- The automatic fields (R175). -/
inductive FieldKind where
  | progress | headA | headB | magazine | pull
deriving DecidableEq, Repr

/-- Who fills a region: a port, or the part with a field and an attribute (R169). -/
inductive Owner where
  | port (p : PortId)
  | auto (kind : FieldKind) (attr : Attr)
deriving DecidableEq, Repr

/-- A region (R169). Its index is its place in the list of regions. -/
structure Region where
  left : Nat
  top : Nat
  width : Nat
  height : Nat
  owner : Owner
deriving DecidableEq, Repr

/-- A row transfer in flight: its row and the bytes not yet loaded into the holding byte (R181). -/
structure Transfer where
  row : Nat
  rest : List Byte
deriving DecidableEq, Repr

/-- The Screen Composer (R168, R169, R180, R181), with the level of PNLRDY (R182). -/
structure Screen where
  cells : Vector (Vector Cell 48) 20
  regions : Vector (Option Region) 8
  dirty : Vector Bool 20
  pnlrdy : Bool
  tx : Option Transfer
  holding : Option Byte
  shift : Option Byte
deriving DecidableEq, Repr

/-! ### Port Interface -/

/-- The results of a command (R190). -/
inductive CmdResult where
  | ok | unknown | role | format | range | state | busy | notFound | duplicate | held | inUse | code | full | none
  | pending
deriving DecidableEq, Repr

/-- The framing state of a port (section 11.2), with what it holds. STREAM stands as its five cases: PWIRE waiting for
its slot byte, PWIRE taking groups, WTXT waiting for its header, WTXT bound with its write pointer (column and row within
the region), WTXT cut off by RGDEL (R174). -/
inductive Framing where
  | idle
  | params (c : Cmd) (received : List Byte)
  | waiting
  | response (unread : List Byte)
  | pwireSlot
  | pwireGroups (slot : Nat) (received : List Byte)
  | wtxtHeader (received : List Byte)
  | wtxtText (region column row : Nat) (attr : Attr)
  | wtxtCut
  | ignore
deriving DecidableEq, Repr

/-- The notices, with their payloads (section 11.8). -/
inductive Notice where
  | ticket (number unit wire tier limitSet profile : Nat)
  | verdict (number : Nat) (phase : Phase) (result : BondResult) (longZ longUS feedStopped : Bool)
  | stray (reason : StrayReason) (number : Nat) (phase : Phase) (zCount : Nat)
  | feedStop (number : Nat) (phase : Phase) (cause : Cause)
  | runEnd (listSize : Nat)
  | touch (head : Head) (us : Bool) (v : Int) (stopped : Bool)
  | linkLost (l : Link) (window pull : Bool)
  | linkBack (l : Link) (selection : Selection) (packing : Packing)
  | mapComplete (serial : W32) (reject suspect : Nat)
  | programRequired (serial : W32)
  | hold (cause : Nat) (reasons : Reasons) (enable : Bool) (added removed : Reasons) (codeStored : Bool)
  | clampGranted (serial : W32)
  | pullResult (id : Nat) (result : PullResult) (mode PF outstanding : Nat)
  | pullShort (serial : W32) (short created : Nat)
  | magOut (id : W16) (stowed : Nat)
  | magFull (id : W16) (stowed : Nat)
  | restart (discarded : Nat) (lost : Bool)
deriving DecidableEq, Repr

/-- A byte in progress on a port (R184): the bits received of it, in the order of arrival. `reads`: what was fixed on data
out at its first clock is an unread response byte (R189). -/
structure UnfinishedByte where
  bits : List Bool
  reads : Bool
deriving DecidableEq, Repr

/-- A coordination port (R185, R189, R191, R193). `unfinished`: the byte in progress, if any (R184). `ignoring`: select was
active when RST was released, and the clock is ignored until select has been released (R184). -/
structure Port where
  framing : Framing
  previous : CmdResult
  queue : List Notice
  lost : Bool
  dataOut : Byte
  unfinished : Option UnfinishedByte
  ignoring : Bool
deriving DecidableEq, Repr

/-! ### The part -/

/-- The whole part, with the commands that are waiting, first in, first out. -/
structure State where
  ports : PerPort Port
  programs : ProgramStore
  map : Option StripMap
  issuer : Issuer
  links : PerLink Receiver
  channels : PerChan Channel
  bond : PerHead BondCapture
  tracker : Tracker
  pull : PullStore
  hold : Hold
  screen : Screen
  pending : List Instr
deriving DecidableEq, Repr

/-- Why the model stops. The spec names no stop of the part. -/
inductive Fault where
  /-- Raised by the meanings of UNKNOWN_COMMAND, COMMAND_BYTE and SELECT_RELEASE on a term that is not well formed, which
  stands for no step of the part. Safe: no step of the part is left out. -/
  | illFormed
deriving DecidableEq, Repr

/-- What the model refuses. -/
inductive Refusal where
  /-- Raised by an arm of exec for a command without a meaning; no arm does. Safe. -/
  | notModelled (mnemonic : String)
deriving DecidableEq, Repr

/-! ### The values after RST -/

/-- A port after RST (R196). Data out before the first byte is 00h: DESIGN CHOICE (28). -/
def Port.reset : Port :=
  { framing := .idle, previous := .ok, queue := [], lost := false, dataOut := 0, unfinished := none, ignoring := false }

/-- The fields of a phase that was never loaded (R12). -/
def PhaseLimits.zero : PhaseLimits :=
  { defLo := 0, defHi := 0, mDef := 0, usiLo := 0, usiHi := 0, mUsi := 0, durMin := 0, durMax := 0 }

/-- A limit set after RST (R12, R15). -/
def LimitSet.reset : LimitSet := { loaded := false, ball := .zero, stitch := .zero, pullMin := 0 }

/-- The Program Store after RST (R15). -/
def ProgramStore.reset : ProgramStore :=
  { slots := Vector.replicate 4 none, selection := none, limits := Vector.replicate 16 LimitSet.reset }

/-- A feed after RST (R64). -/
def Feed.reset : Feed :=
  { state := .off, count := 0, traversal := .ascend, fixedUnit := 0, order := .sequential, delivery := .pull, depth := 1,
    cursor := none, tickets := [], nextNumber := 0, latch := false, request := none, fill := false }

/-- The Ticket Issuer after RST (R64). -/
def Issuer.reset : Issuer := { feeds := ⟨.reset, .reset⟩, guard := Config.resetGuard, lastServed := .b }

/-- A receiver after RST (R79). -/
def Receiver.reset : Receiver :=
  { assembling := [], holding := none, atRest := false, selection := .none, packing := .single, present := true,
    timer := none, timeout := Config.resetTimeout }

/-- A head channel after RST (R98). -/
def Channel.reset : Channel :=
  { enabled := false, d := 1, s := 0, o := 0, metric := 0, t := 8388607, n := 255, sum := 0, count := 0, run := 0 }

/-- P-F after RST (R98), which has no touch detector. -/
def Channel.resetForce : Channel := { Channel.reset with t := 0, n := 0 }

/-- A Bond Capture after RST, with WIN low (R115). -/
def BondCapture.reset : BondCapture := { armed := none, window := none, last := none, win := false }

/-- The Position Tracker after RST (R137). -/
def Tracker.reset : Tracker :=
  { input := none, output := none, feed := none, zone := none, pull := none, clamp := .none }

/-- The Pull Record Store after RST (R154). -/
def PullStore.reset : PullStore :=
  { period := 0, limit := 1, units := [], counter := 0, records := [], nextId := 0, capture := none, selection := [] }

/-- No hold reason. -/
def Reasons.empty : Reasons := { operator := false, line := false, pullFail := false, restart := false }

/-- Hold Control after RST, with HOLDIN inactive (R166). -/
def Hold.reset : Hold := { reasons := .empty, enable := false, code := 0, holdin := false }

/-- The attribute of a blank cell: colour 0, blink clear (R183). -/
def Attr.plain : Attr := { colour := 0, blink := false }

/-- A blank cell (R183). -/
def Cell.blank : Cell := { ch := 0x20, attr := .plain }

/-- The Screen Composer after RST, with PNLRDY inactive (R183). -/
def Screen.reset : Screen :=
  { cells := Vector.replicate 20 (Vector.replicate 48 Cell.blank), regions := Vector.replicate 8 none,
    dirty := Vector.replicate 20 true, pnlrdy := false, tx := none, holding := none, shift := none }

/-- The part after RST released with every input line at rest: HOLDIN and PNLRDY inactive, WIN low, select released
(DESIGN CHOICE (1)); no command waits. -/
def State.reset : State :=
  { ports := ⟨.reset, .reset, .reset, .reset⟩, programs := .reset, map := none, issuer := .reset,
    links := ⟨.reset, .reset, .reset⟩,
    channels := ⟨.reset, .reset, .reset, .reset, .resetForce⟩,
    bond := ⟨.reset, .reset⟩, tracker := .reset, pull := .reset, hold := .reset, screen := .reset, pending := [] }

end Sys2Proof.Machine
end

