-- ==== Sys2Proof/Machine/Operands.lean ====
section
/-! DEFINITION. The forms of parameters and of response data: byte order (high byte first, section 11.8), signed values,
flag bytes, the codes of the named values, and the parameter bytes of every row. -/

namespace Sys2Proof

/-! ### Ports, heads and links: codes, and which port carries what -/

/-- The head codes. -/
def Head.code : Head → Nat
  | .a => 0 | .b => 1

/-- The roles (R192). -/
def PortId.code : PortId → Nat
  | .ha => 0 | .hb => 1 | .cc => 2 | .mh => 3

/-- The link codes (R77). -/
def Link.code : Link → Nat
  | .slA => 0 | .slB => 1 | .slP => 2

/-- The head whose port this is (00, "Ports and roles"). -/
def PortId.head? : PortId → Option Head
  | .ha => some .a | .hb => some .b | .cc => none | .mh => none

/-- The head's port. -/
def Head.port : Head → PortId
  | .a => .ha | .b => .hb

/-- The other head. -/
def Head.other : Head → Head
  | .a => .b | .b => .a

/-- The port's role accepts the command (R186). -/
def PortId.accepts (p : PortId) : Cmd → Bool
  | .stat | .note | .wtxt => true
  | .run | .halt | .next | .claim | .cancel | .arm | .disarm | .freset | .clrstop | .hstat => p == .ha || p == .hb
  | .pload | .pwire | .limset | .psel | .pfree | .skipu | .maprd | .maptake | .guard | .chcfg | .splan | .ptake
  | .hold | .release | .setcode | .rgdef | .rgdel | .restart => p == .cc
  | .magld | .magul | .feed | .zone | .zrel | .stow | .clamp | .cldone | .pstart | .pend | .pvoid => p == .mh
  | .mgrd => p == .cc || p == .mh

end Sys2Proof

namespace Sys2Proof.Machine

/-! ### Bytes of numbers and numbers of bytes -/

/-- The byte of a number below 256. -/
def b8 (n : Nat) : Byte := BitVec.ofNat 8 n
/-- The number whose bits arrive most significant bit first (R184, section 11.8). -/
def ofMsbFirst (bits : List Bool) : Nat := bits.foldl (fun n b => 2 * n + b.toNat) 0
/-- Two bytes, high byte first. -/
def be16 (n : Nat) : List Byte := [b8 (n / 256), b8 n]
/-- Three bytes, high byte first. -/
def be24 (n : Nat) : List Byte := [b8 (n / 65536), b8 (n / 256), b8 n]
/-- Four bytes, high byte first. -/
def be32 (n : Nat) : List Byte := [b8 (n / 16777216), b8 (n / 65536), b8 (n / 256), b8 n]
/-- Three bytes of a signed value in two's complement. -/
def be24s (v : Int) : List Byte := be24 (BitVec.ofInt 24 v).toNat
/-- A flag as a byte. -/
def flag8 (f : Bool) : Byte := if f then 1 else 0

/-- Byte `i` of received parameter bytes, as a number. -/
def p8 (bs : List Byte) (i : Nat) : Nat := (bs.getD i 0).toNat
/-- The two-byte parameter that starts at byte `i`. -/
def p16 (bs : List Byte) (i : Nat) : Nat := p8 bs i * 256 + p8 bs (i + 1)
/-- The three-byte parameter that starts at byte `i`. -/
def p24 (bs : List Byte) (i : Nat) : Nat := p8 bs i * 65536 + p8 bs (i + 1) * 256 + p8 bs (i + 2)
/-- The four-byte parameter that starts at byte `i`. -/
def p32 (bs : List Byte) (i : Nat) : Nat :=
  p8 bs i * 16777216 + p8 bs (i + 1) * 65536 + p8 bs (i + 2) * 256 + p8 bs (i + 3)
/-- A 24-bit value read as signed (CHCFG's offset). -/
def signed24 (n : Nat) : Int := (BitVec.ofNat 24 n).toInt
/-- A 16-bit half of a link word read as signed (section 4.2). -/
def signed16 (n : Nat) : Int := (BitVec.ofNat 16 n).toInt

/-- Flag `i` of a row of flag bytes: eight to a byte, the first in the lowest bit of the first byte (R121, R126). -/
def flagOf (bs : List Byte) (i : Nat) : Bool := (bs.getD (i / 8) 0).getLsbD (i % 8)

/-- The attribute in an attribute byte: three bits of colour, then blink (RGDEF). -/
def Attr.ofByte (b : Byte) : Attr := { colour := b.extractLsb' 0 3, blink := b.getLsbD 3 }
/-- The attribute byte of an attribute (section 11.8, row transfer). -/
def Attr.toByte (a : Attr) : Byte := b8 (a.colour.toNat + if a.blink then 8 else 0)
/-- The attribute byte has a bit set above the blink flag (R170, R172). -/
def attrBad (b : Nat) : Bool := decide (b > 15)

/-! ### Codes of named values (section 11.8) -/

/-- The result codes (R190). -/
def CmdResult.byte : CmdResult → Byte
  | .ok => 0x00 | .unknown => 0x01 | .role => 0x02 | .format => 0x03 | .range => 0x04 | .state => 0x05 | .busy => 0x06
  | .notFound => 0x07 | .duplicate => 0x08 | .held => 0x09 | .inUse => 0x0A | .code => 0x0B | .full => 0x0C
  | .none => 0x0D | .pending => 0x0E

/-- The sub-reasons of STATE (R190). -/
inductive SubReason where
  | unnamed | noMap | incomplete | touch | push | clamp | slot | tier | guard | magPresent | noMag | noStrip | waiting
  | export_ | pullBusy | record | disabled | line | pullFail | overlap
deriving DecidableEq, Repr

/-- The codes of the sub-reasons (R190); 0 where an entry names none. -/
def SubReason.code : SubReason → Nat
  | .unnamed => 0 | .noMap => 1 | .incomplete => 2 | .touch => 3 | .push => 4 | .clamp => 5 | .slot => 6 | .tier => 7
  | .guard => 8 | .magPresent => 9 | .noMag => 10 | .noStrip => 11 | .waiting => 12 | .export_ => 13 | .pullBusy => 14
  | .record => 15 | .disabled => 16 | .line => 17 | .pullFail => 18 | .overlap => 19

/-- The reasons of NONE (R50). -/
inductive NoneReason where
  | noMap | mapComplete | held | clamp | feedOff | listFull | guard | tierWait | noWire
deriving DecidableEq, Repr

/-- The codes of the reasons of NONE (R50). -/
def NoneReason.code : NoneReason → Nat
  | .noMap => 1 | .mapComplete => 2 | .held => 3 | .clamp => 4 | .feedOff => 5 | .listFull => 6 | .guard => 7
  | .tierWait => 8 | .noWire => 9

/-- The verdict codes. -/
def Verdict.code : Verdict → Nat
  | .good => 0 | .marginal => 1 | .unjudged => 2 | .fail => 3

/-- The cause codes. -/
def Cause.code : Cause → Nat
  | .none => 0 | .nonstick => 1 | .overcrush => 2 | .usAbnormal => 3 | .time => 4 | .noLimits => 5 | .abandoned => 6
  | .noData => 8 | .link => 9 | .disabled => 10

/-- The slot state codes. -/
def SlotPhase.code : SlotPhase → Nat
  | .opened => 0 | .issued .. => 1 | .first .. => 2 | .closed .. => 3 | .skipped => 4

/-- The phase codes (R102, R109). -/
def Phase.code : Phase → Nat
  | .ball => 0 | .stitch => 1

/-- The slot states of a program slot, 0 for EMPTY (R9). -/
def programCode : Option Program → Nat
  | none => 0
  | some p => match p.state with | .loading => 1 | .ready => 2 | .inUse => 3

/-- The unit state codes (R32). -/
def UnitState.code : UnitState → Nat
  | .active => 0 | .skipped => 1 | .done _ => 2

/-- The outcome codes (section 11.8). -/
def UnitOutcome.code : UnitOutcome → Nat
  | .good => 0 | .suspect => 1 | .reject => 2 | .skipped => 3

/-- The outcome of a unit, present when it is DONE or SKIPPED (R27). -/
def UnitState.outcome? : UnitState → Option UnitOutcome
  | .active => none | .skipped => some .skipped | .done o => some o

/-- The feed state codes (R60). -/
def FeedState.code : FeedState → Nat
  | .off => 0 | .running => 1 | .stopped _ => 2

/-- The stop reason codes (R60). -/
def FeedState.reasonCode : FeedState → Nat
  | .stopped .fail => 1 | .stopped .touch => 2 | _ => 0

/-- The traversal codes (RUN). -/
def Traversal.code : Traversal → Nat
  | .ascend => 0 | .descend => 1 | .fixed => 2
/-- The order codes (RUN). -/
def ScanOrder.code : ScanOrder → Nat
  | .sequential => 0 | .stride => 1
/-- The delivery codes (RUN). -/
def Delivery.code : Delivery → Nat
  | .pull => 0 | .push => 1

/-- The traversal of a checked traversal byte (R43). -/
def Traversal.ofCode (n : Nat) : Traversal := if n = 0 then .ascend else if n = 1 then .descend else .fixed
/-- The order of a checked order byte (R43). -/
def ScanOrder.ofCode (n : Nat) : ScanOrder := if n = 0 then .sequential else .stride
/-- The delivery of a checked delivery byte (R43). -/
def Delivery.ofCode (n : Nat) : Delivery := if n = 0 then .pull else .push

/-- The selection codes (R70). For NONE, which R70 gives more than one code, LINK_BACK carries 0: (38). -/
def Selection.code : Selection → Nat
  | .none => 0 | .z => 1 | .us => 2 | .force => 3
/-- The packing codes (R70). For SINGLE, which R70 gives two codes, LINK_BACK carries 0: (38). -/
def Packing.code : Packing → Nat
  | .single => 0 | .pair => 1 | .split => 2

/-- The stray reason codes (R111). -/
def StrayReason.code : StrayReason → Nat
  | .notArmed => 0 | .cancelled => 1 | .freset => 2 | .clamp => 3

/-- The pull result codes (R150). -/
def PullResult.code : PullResult → Nat
  | .pass => 0 | .failLow => 1 | .failMode => 2 | .unjudged => 3

/-- The pull outcome codes (R132). -/
def PullOutcome.code : PullOutcome → Nat
  | .none => 0 | .pass => 1 | .fail => 2

/-- The clamp state codes (R136). -/
def Clamp.code : Clamp → Nat
  | .none => 0 | .requested => 1 | .granted => 2

/-- The pull status codes of a position entry (R124). -/
def PullState.code : PullState → Nat
  | .none => 1 | .opened => 2 | .closed => 3

/-- A hold reason set as a number (chapter 9). -/
def Reasons.code (r : Reasons) : Nat :=
  (if r.operator then 1 else 0) + (if r.line then 2 else 0) + (if r.pullFail then 4 else 0) + (if r.restart then 8 else 0)

/-- The reasons named by a mask byte with its upper bits 0 (R162). -/
def Reasons.ofMask (m : Nat) : Reasons :=
  { operator := m.testBit 0, line := m.testBit 1, pullFail := m.testBit 2, restart := m.testBit 3 }

/-- The field kind of a checked field kind byte (R170). -/
def FieldKind.ofCode (n : Nat) : FieldKind :=
  if n = 0 then .progress else if n = 1 then .headA else if n = 2 then .headB else if n = 3 then .magazine else .pull
/-- The field kind codes (RGDEF). -/
def FieldKind.code : FieldKind → Nat
  | .progress => 0 | .headA => 1 | .headB => 2 | .magazine => 3 | .pull => 4

/-- The port of an owner code below 4 (RGDEF). -/
def ownerPort (n : Nat) : PortId := if n = 0 then .cc else if n = 1 then .ha else if n = 2 then .hb else .mh
/-- The owner codes (RGDEF, R171). -/
def Owner.code : Owner → Nat
  | .port .cc => 0 | .port .ha => 1 | .port .hb => 2 | .port .mh => 3 | .auto _ _ => 4
/-- The field kind code of an owner, 0 for a port (R171). -/
def Owner.kindCode : Owner → Nat
  | .port _ => 0 | .auto k _ => k.code

/-- The channel of a channel code (R80). -/
def ChanId.ofCode? (n : Nat) : Option ChanId :=
  if n = 0 then some .az else if n = 1 then some .aus else if n = 2 then some .bz else if n = 3 then some .bus
  else if n = 4 then some .pf else none

/-! ### The parameter bytes of the rows -/

/-- The sixteen bytes of one phase of LIMSET. -/
def phaseBytes (w : PhaseWords) : List Byte :=
  be16 w.defLo.toNat ++ be16 w.defHi.toNat ++ be16 w.mDef.toNat ++ be16 w.usiLo.toNat ++ be16 w.usiHi.toNat
    ++ be16 w.mUsi.toNat ++ be16 w.durMin.toNat ++ be16 w.durMax.toNat

/-- The parameter bytes of a command's row, in the order its entry gives (R186). Rows that are no command, and commands
without parameters, have none. For PWIRE_GROUP and WTXT_TEXT_BYTE they are the bytes of the group. -/
def paramBytes : Instr → List Byte
  | .note _ k => [k]
  | .wtxt _ i c r a => [i, c, r, a]
  | .wtxtTextByte _ ch => [ch]
  | .pwire _ slot => [slot]
  | .pwireGroup _ tier x ls prof fl => [tier] ++ be16 x.toNat ++ [ls, prof, fl]
  | .run _ count trav fu ord del dep => be16 count.toNat ++ [trav, fu, ord, del, dep]
  | .claim _ u w => [u] ++ be16 w.toNat
  | .cancel _ t => [t]
  | .arm _ t => [t]
  | .pload _ slot label u pitch w t fl =>
    [slot] ++ be16 label.toNat ++ [u] ++ be16 pitch.toNat ++ be16 w.toNat ++ [t, fl]
  | .limset _ i ball stitch pm => [i] ++ phaseBytes ball ++ phaseBytes stitch ++ be16 pm.toNat
  | .psel _ v => [v]
  | .pfree _ v => [v]
  | .skipu _ u => [u]
  | .maprd _ f n => [f, n]
  | .guard _ g => be16 g.toNat
  | .chcfg _ ch fl d s o m t n tmo => [ch, fl, d, s] ++ be24 o.toNat ++ [m] ++ be24 t.toNat ++ [n] ++ be16 tmo.toNat
  | .splan _ p k c us => [p, k, c] ++ us.toList
  | .ptake _ k => [k]
  | .release _ m code => [m] ++ be16 code.toNat
  | .setcode _ old new => be16 old.toNat ++ be16 new.toNat
  | .rgdef _ i ow k l t w h a => [i, ow, k, l, t, w, h, a]
  | .rgdel _ i => [i]
  | .mgrd _ side => [side]
  | .magld _ side id count occ => [side] ++ be16 id.toNat ++ [count] ++ occ.toList
  | .magul _ side => [side]
  | .feed _ slot serial => [slot] ++ be32 serial.toNat
  | .zone _ mask => mask.toList
  | .stow _ slot => [slot]
  | .pstart _ id => be16 id.toNat
  | .pend _ id m => be16 id.toNat ++ [m]
  | .pvoid _ id => be16 id.toNat
  | .stat _ | .halt _ | .next _ | .freset _ | .hstat _ | .disarm _ | .clrstop _ | .maptake _ | .hold _ | .restart _
  | .zrel _ | .clamp _ | .cldone _ | .unknownCommand _ _ | .readoutByte _ _ | .selectRelease _ _ | .arbiterServe
  | .fillServe | .windowOpen _ | .windowClose _ | .holdinActive | .holdinInactive | .pnlrdyRise | .pnlrdyFall
  | .dlByteSent | .rst _ | .addressWord _ _ | .dataWord _ _ | .framingError _ | .absenceExpiry _ | .commandByte _ _
  | .lineReturnsToRest _ => []

/-! ### Notices as eight bytes (section 11.8) -/

/-- Kind and payload of a notice, before the unused bytes. -/
def Notice.body : Notice → List Byte
  | .ticket n u w t ls pr => [0x01, b8 n, b8 u] ++ be16 w ++ [b8 t, b8 ls, b8 pr]
  | .verdict n ph r lz lu fs =>
    [0x02, b8 n, b8 (r.verdict.code + 4 * ph.code + (if lz then 8 else 0) + (if lu then 16 else 0) + (if fs then 32 else 0)),
      b8 r.cause.code] ++ be16 r.DEF ++ be16 r.USI
  | .stray why n ph k => [0x03, b8 why.code, b8 n, b8 ph.code] ++ be16 k
  | .feedStop n ph c => [0x04, b8 n, b8 ph.code, b8 c.code]
  | .runEnd k => [0x05, b8 k]
  | .touch h us v st => [0x06, b8 h.code, flag8 us] ++ be24s v ++ [flag8 st]
  | .linkLost l w p => [0x07, b8 l.code, flag8 w, flag8 p]
  | .linkBack l sel pk => [0x08, b8 l.code, b8 sel.code, b8 pk.code]
  | .mapComplete s r u => [0x09] ++ be32 s.toNat ++ [b8 r, b8 u]
  | .programRequired s => [0x0A] ++ be32 s.toNat
  | .hold c rs en ad re code => [0x0B, b8 c, b8 rs.code, flag8 en, b8 ad.code, b8 re.code, flag8 code]
  | .clampGranted s => [0x0C] ++ be32 s.toNat
  | .pullResult id r m pf out => [0x0D] ++ be16 id ++ [b8 r.code, b8 m] ++ be16 pf ++ [b8 out]
  | .pullShort s k c => [0x0E] ++ be32 s.toNat ++ [b8 k, b8 c]
  | .magOut id k => [0x0F] ++ be16 id.toNat ++ [b8 k]
  | .magFull id k => [0x10] ++ be16 id.toNat ++ [b8 k]
  | .restart k lost => [0x11, b8 k, flag8 lost]

/-- The eight bytes of a notice: unused bytes are 0 (section 11.8; bits 6 and 7 of byte 2 of VERDICT: (37)). -/
def Notice.bytes (n : Notice) : List Byte := (n.body ++ List.replicate 8 0).take 8

/-- The thirteen bytes of a ticket in a response (R49). -/
def Ticket.bytes (t : Ticket) : List Byte :=
  [b8 t.number, b8 t.unit] ++ be16 t.wire ++ [b8 t.tier] ++ be16 t.x ++ be32 t.absX ++ [b8 t.limitSet, b8 t.profile]

end Sys2Proof.Machine
end

