-- ==== Sys2Proof/Machine/Flags.lean ====
section
/-! DEFINITION. The arithmetic of signal conditioning and judgment: rounding shift, offset and saturation, the touch
run, the metrics, the verdict tables, and the marks and values a capture takes. -/

namespace Sys2Proof.Machine

/-! ### From samples to decimated values -/

/-- The rounding shift (R84): to the nearest integer, ties toward positive infinity. The quotient is the floor, since the
divisor is positive. -/
def roundShift (s : Nat) (y : Int) : Int :=
  if s = 0 then y else (y + 2 ^ (s - 1)) / 2 ^ s

/-- Saturation to the range of decimated values (R85). -/
def saturateValue (x : Int) : Int := max Config.valueMin (min Config.valueMax x)

/-- The decimated value of a group sum (R84, R85). -/
def Channel.value (c : Channel) (y : Int) : Int := saturateValue (roundShift c.s y - c.o)

/-- One sample into the accumulator of an enabled channel (R83): the channel after it, and the decimated value if the
sample completes a group. -/
def Channel.sample (c : Channel) (x : Int) : Channel × Option Int :=
  if c.count + 1 < c.d then ({ c with sum := c.sum + x, count := c.count + 1 }, none)
  else ({ c with sum := 0, count := 0 }, some (c.value (c.sum + x)))

/-- The accumulator emptied; a partial group is discarded (R82, R86). -/
def Channel.empty (c : Channel) : Channel := { c with sum := 0, count := 0 }

/-- The touch run counter after a decimated value (R87). -/
def Channel.runAfter (c : Channel) (v : Int) : Nat :=
  if c.t ≤ v.natAbs then (if c.run < c.n then c.run + 1 else c.run) else 0

/-- The value makes the run counter rise to N (R88). -/
def Channel.touches (c : Channel) (v : Int) : Bool := c.runAfter v == c.n && decide (c.run < c.n)

/-! ### Captures -/

/-- A channel's part of a capture at its opening (R90); `absent`: the link is ABSENT (R75). -/
def CapturePart.opening (enabled absent : Bool) : CapturePart :=
  { enabledAtOpen := enabled, n := 0, long := false, absence := absent, framing := false }

/-- The part of a discarded capture (R113). -/
def CapturePart.blank : CapturePart := .opening false false

/-- The count and LONG mark after one value (R91, R96). -/
def CapturePart.take (c : CapturePart) : CapturePart :=
  if c.n < Config.captureCap then { c with n := c.n + 1 } else { c with long := true }

/-- A value of the Z channel into an open window capture (R91). -/
def Window.takeZ (w : Window) (v : Int) : Window :=
  if w.z.n < Config.captureCap then
    { w with z := w.z.take, z0 := some (w.z0.getD v), zmin := some (min (w.zmin.getD v) v) }
  else { w with z := w.z.take }

/-- A value of the US channel into an open window capture (R91). -/
def Window.takeUS (w : Window) (v : Int) : Window :=
  if w.us.n < Config.captureCap then { w with us := w.us.take, usSum := w.usSum + v.natAbs }
  else { w with us := w.us.take }

/-- The absence mark on both channels (R75). -/
def Window.markAbsence (w : Window) : Window :=
  { w with z := { w.z with absence := true }, us := { w.us with absence := true } }

/-- The framing-error mark on both channels (R75). -/
def Window.markFraming (w : Window) : Window :=
  { w with z := { w.z with framing := true }, us := { w.us with framing := true } }

/-- The capture takes values and marks: it is present and not silenced (R113). -/
def Window.live (w : Window) : Bool := w.binding != .silenced

/-- A window capture at its opening (R90, R104). -/
def Window.opening (b : Binding) (zEnabled usEnabled absent : Bool) : Window :=
  { binding := b, z := .opening zEnabled absent, us := .opening usEnabled absent, z0 := none, zmin := none, usSum := 0 }

/-- A window capture silenced by RESTART: no binding and no contents (R113). -/
def Window.silenced : Window :=
  { binding := .silenced, z := .blank, us := .blank, z0 := none, zmin := none, usSum := 0 }

/-- A value of P-F into an open pull capture (R96). -/
def PullCapture.takeValue (c : PullCapture) (v : Int) : PullCapture :=
  if c.n < Config.captureCap then { c with n := c.n + 1, vmax := some (max (c.vmax.getD v) v) } else { c with long := true }

/-- A pull capture at its opening (R96, R148). -/
def PullCapture.opening (absent : Bool) : PullCapture :=
  { n := 0, long := false, absence := absent, framing := false, vmax := none }

/-! ### Metrics -/

/-- Saturation at the greatest metric (R92). -/
def saturateMetric (n : Nat) : Nat := min Config.metricMax n

/-- DUR: the count of Z values (R92). -/
def Window.DUR (w : Window) : Nat := w.z.n

/-- DEF (R92). -/
def Window.DEF (w : Window) (wz : Nat) : Nat :=
  if w.z.n = 0 then 0
  else
    match w.z0, w.zmin with
    | some z0, some zmin => saturateMetric ((z0 - zmin).toNat / 2 ^ wz)
    | _, _ => 0

/-- USI (R92). -/
def Window.USI (w : Window) (wu : Nat) : Nat := if w.us.n = 0 then 0 else saturateMetric (w.usSum / 2 ^ wu)

/-- PF (R97). -/
def PullCapture.PF (c : PullCapture) (wp : Nat) : Nat :=
  if c.n = 0 then 0
  else
    match c.vmax with
    | some v => saturateMetric (v.toNat / 2 ^ wp)
    | none => 0

/-! ### The verdict tables -/

/-- The limits of a set for a phase (R93). -/
def LimitSet.phase (l : LimitSet) : Phase → PhaseLimits
  | .ball => l.ball
  | .stitch => l.stitch

/-- A metric lies within a margin of its band's ends (row 7 of R93), on exact integers (R94). -/
def inMargin (v lo hi m : Nat) : Bool := decide (v < lo + m) || decide (hi < v + m)

/-- The verdict table of a window (R93): the first row that matches. -/
def judgeWindow (w : Window) (l : LimitSet) (ph : Phase) (DEF USI : Nat) : Verdict × Cause :=
  let f := l.phase ph
  if !w.z.enabledAtOpen || !w.us.enabledAtOpen then (.unjudged, .disabled)
  else if w.z.absence || w.z.framing || w.us.absence || w.us.framing then (.unjudged, .link)
  else if w.z.n = 0 ∨ w.us.n = 0 then (.unjudged, .noData)
  else if !l.loaded then (.fail, .noLimits)
  else if w.DUR < f.durMin ∨ f.durMax < w.DUR then (.fail, .time)
  else if DEF < f.defLo then (.fail, .nonstick)
  else if f.defHi < DEF then (.fail, .overcrush)
  else if USI < f.usiLo ∨ f.usiHi < USI then (.fail, .usAbnormal)
  else if inMargin DEF f.defLo f.defHi f.mDef || inMargin USI f.usiLo f.usiHi f.mUsi then (.marginal, .none)
  else (.good, .none)

/-- The result of a judged window (R92, R95). -/
def Window.judge (w : Window) (l : LimitSet) (ph : Phase) (wz wu : Nat) : BondResult :=
  let v := judgeWindow w l ph (w.DEF wz) (w.USI wu)
  { verdict := v.1, cause := v.2, DEF := w.DEF wz, USI := w.USI wu, DUR := w.DUR }

/-- The worse of two verdicts in the order GOOD, MARGINAL, UNJUDGED, FAIL (R25). -/
def Verdict.worse (x y : Verdict) : Verdict := if x.code < y.code then y else x

/-- The fail cause of a close: the ball's if the ball failed, else the stitch's; none unless the close verdict is FAIL
(R20, R25). -/
def closeCause (ball stitch : BondResult) : Cause :=
  if Verdict.worse ball.verdict stitch.verdict = .fail then
    (if ball.verdict = .fail then ball.cause else stitch.cause)
  else .none

/-- The break modes that fail (R97): 1 BALL_LIFT and 5 STITCH_LIFT. -/
def isLift (mode : Nat) : Bool := mode == 1 || mode == 5

/-- The pull table (R97): the first row that matches. -/
def judgePull (c : PullCapture) (l : LimitSet) (PF mode : Nat) : PullResult :=
  if c.n = 0 ∨ c.absence = true ∨ c.framing = true then .unjudged
  else if !l.loaded then .failLow
  else if PF < l.pullMin then .failLow
  else if isLift mode then .failMode
  else .pass

end Sys2Proof.Machine
end

