-- ==== Sys2Proof/Machine/Ops.lean ====
section
/-! DEFINITION. The shared operations over the parts of the state: accessors, responses, notices, hold reasons, the
framing of a command byte, and the triggers of an issue pass. The part takes no exceptions: it has no exception entry. -/

namespace Sys2Proof.Machine

/-! ### Accessors -/

/-- The entry of a head. -/
def PerHead.get {α : Type} (x : PerHead α) : Head → α
  | .a => x.a | .b => x.b
/-- The entry of a head replaced. -/
def PerHead.set {α : Type} (x : PerHead α) : Head → α → PerHead α
  | .a, v => { x with a := v } | .b, v => { x with b := v }

/-- The entry of a port. -/
def PerPort.get {α : Type} (x : PerPort α) : PortId → α
  | .ha => x.ha | .hb => x.hb | .cc => x.cc | .mh => x.mh
/-- The entry of a port replaced. -/
def PerPort.set {α : Type} (x : PerPort α) : PortId → α → PerPort α
  | .ha, v => { x with ha := v } | .hb, v => { x with hb := v } | .cc, v => { x with cc := v }
  | .mh, v => { x with mh := v }
/-- Every entry changed alike. -/
def PerPort.map {α β : Type} (f : α → β) (x : PerPort α) : PerPort β := ⟨f x.ha, f x.hb, f x.cc, f x.mh⟩

/-- The entry of a link. -/
def PerLink.get {α : Type} (x : PerLink α) : Link → α
  | .slA => x.slA | .slB => x.slB | .slP => x.slP
/-- The entry of a link replaced. -/
def PerLink.set {α : Type} (x : PerLink α) : Link → α → PerLink α
  | .slA, v => { x with slA := v } | .slB, v => { x with slB := v } | .slP, v => { x with slP := v }

/-- The entry of a channel. -/
def PerChan.get {α : Type} (x : PerChan α) : ChanId → α
  | .az => x.az | .aus => x.aus | .bz => x.bz | .bus => x.bus | .pf => x.pf
/-- The entry of a channel replaced. -/
def PerChan.set {α : Type} (x : PerChan α) : ChanId → α → PerChan α
  | .az, v => { x with az := v } | .aus, v => { x with aus := v } | .bz, v => { x with bz := v }
  | .bus, v => { x with bus := v } | .pf, v => { x with pf := v }

/-- A port of the part. -/
def State.port (s : State) (p : PortId) : Port := s.ports.get p
/-- A port replaced. -/
def State.setPort (s : State) (p : PortId) (x : Port) : State := { s with ports := s.ports.set p x }
/-- The feed of a head. -/
def State.feed (s : State) (h : Head) : Feed := s.issuer.feeds.get h
/-- The feed of a head replaced. -/
def State.setFeed (s : State) (h : Head) (f : Feed) : State :=
  { s with issuer := { s.issuer with feeds := s.issuer.feeds.set h f } }
/-- The Bond Capture of a head. -/
def State.capture (s : State) (h : Head) : BondCapture := s.bond.get h
/-- The Bond Capture of a head replaced. -/
def State.setCapture (s : State) (h : Head) (c : BondCapture) : State := { s with bond := s.bond.set h c }
/-- The receiver of a link. -/
def State.link (s : State) (l : Link) : Receiver := s.links.get l
/-- The receiver of a link replaced. -/
def State.setLink (s : State) (l : Link) (r : Receiver) : State := { s with links := s.links.set l r }
/-- A channel. -/
def State.chan (s : State) (c : ChanId) : Channel := s.channels.get c
/-- A channel replaced. -/
def State.setChan (s : State) (c : ChanId) (x : Channel) : State := { s with channels := s.channels.set c x }
/-- The accumulator of a channel emptied (R86). -/
def State.emptyChan (s : State) (c : ChanId) : State := s.setChan c (s.chan c).empty

/-- The Z channel of a head. -/
def zChan : Head → ChanId
  | .a => .az | .b => .bz
/-- The US channel of a head. -/
def usChan : Head → ChanId
  | .a => .aus | .b => .bus
/-- The sensor link of a head (R66). -/
def headLink : Head → Link
  | .a => .slA | .b => .slB
/-- The head of a channel, if it is a head channel (R80). -/
def ChanId.head? : ChanId → Option Head
  | .az | .aus => some .a | .bz | .bus => some .b | .pf => none
/-- The link of a channel (R80). -/
def ChanId.link : ChanId → Link
  | .az | .aus => .slA | .bz | .bus => .slB | .pf => .slP
/-- The accumulators of both channels of a head emptied (R86). -/
def State.emptyHead (s : State) (h : Head) : State := (s.emptyChan (zChan h)).emptyChan (usChan h)

/-- The limit set of an index 0..15; LIMSET and PWIRE let no other index in. -/
def State.limitSet (s : State) (i : Nat) : LimitSet := s.programs.limits[i]?.getD LimitSet.reset
/-- The program in a slot, none for EMPTY. -/
def State.program? (s : State) (i : Nat) : Option Program := s.programs.slots[i]?.join
/-- A program slot replaced. -/
def State.setProgram (s : State) (i : Nat) (p : Option Program) : State :=
  { s with programs := { s.programs with slots := s.programs.slots.setIfInBounds i p } }

/-! ### Notices (R193) -/

/-- A notice placed in the queue, or dropped with the lost flag set when the queue is full (R193). -/
def Port.enqueue (q : Port) (n : Notice) : Port :=
  if q.queue.length < Config.queueCapacity then { q with queue := q.queue ++ [n] } else { q with lost := true }

/-- A notice posted to a port (R193). -/
def State.post (s : State) (p : PortId) (n : Notice) : State := s.setPort p ((s.port p).enqueue n)

/-- A notice posted to all four ports (R34, R158), in each queue apart (R193). -/
def State.postAll (s : State) (n : Notice) : State := { s with ports := s.ports.map (fun q => q.enqueue n) }

/-- The attention output of a port follows its queue (R193). -/
def Port.attention (q : Port) : Bool := !q.queue.isEmpty

/-! ### Framing and responses (R187 to R190) -/

/-- The byte data out carries at the first clock of a byte (R189). -/
def Port.outByte (q : Port) : Byte :=
  match q.framing with
  | .response (b :: _) => b
  | .waiting => 0xFF
  | _ => 0

/-- A response byte is unread (R189). -/
def Port.unread (q : Port) : Bool :=
  match q.framing with
  | .response (_ :: _) => true
  | _ => false

/-- The byte in progress at a clock edge, which begins one where there is none (R184, R189). -/
def Port.inProgress (q : Port) : UnfinishedByte := q.unfinished.getD { bits := [], reads := q.unread }

/-- The byte on data out at a clock edge: fixed at the first clock of the byte (R189). -/
def Port.fixedOut (q : Port) : Byte := if q.unfinished.isSome then q.dataOut else q.outByte

/-- The level of data out at a clock of the byte it carries: the most significant bit at the first (R184). -/
def Port.dataOutLevel (q : Port) (clock : Fin 8) : Bool := q.dataOut.getLsbD (7 - clock.val)

/-- A command byte in this framing state sets the previous-result to FORMAT: an atomic command in PARAMS (R187), PWIRE
before its slot byte (R6) or inside a group (R8), WTXT before its header is complete (R172). -/
def Framing.cutShort : Framing → Bool
  | .params _ _ => true
  | .pwireSlot => true
  | .pwireGroups _ received => !received.isEmpty
  | .wtxtHeader _ => true
  | _ => false

/-- What a command byte ends at its completion (R187): the streaming command, the response, the command in PARAMS. A
request at the arbiter is not ended (R188). -/
def Port.commandByte (q : Port) : Port :=
  { q with
    dataOut := q.outByte
    unfinished := none
    previous := if q.framing.cutShort then .format else q.previous
    framing := .idle }

/-- The framing state a known command that is not taken at once leads to (R187). -/
def commandFraming (p : PortId) (c : Cmd) : Framing :=
  match c with
  | .wtxt => .wtxtHeader []
  | .pwire => if p = .cc then .pwireSlot else .ignore
  | c => .params c []

/-- The command byte of a known command that is not taken at once (R187). For PWIRE on a port other than CC the
previous-result becomes ROLE. -/
def Port.startCommand (q : Port) (p : PortId) (c : Cmd) : Port :=
  { q.commandByte with
    previous := if c = .pwire ∧ p ≠ .cc then .role else q.commandByte.previous
    framing := commandFraming p c }

/-- A response loaded: result byte, detail byte, data (R189). The port enters RESPONSE (R188). -/
def State.respond (s : State) (p : PortId) (r : CmdResult) (detail : Nat) (data : List Byte) : State :=
  s.setPort p { s.port p with framing := .response (r.byte :: b8 detail :: data) }

/-- A refusal without detail and data (R190). -/
def State.refuse (s : State) (p : PortId) (r : CmdResult) : State := s.respond p r 0 []

/-- A refusal STATE with its sub-reason (R190). -/
def State.refuseState (s : State) (p : PortId) (why : SubReason) : State := s.respond p .state why.code []

/-- The port is collecting the parameters of this command, and what it has received is the beginning of them. -/
def Port.collects (q : Port) (c : Cmd) (bytes : List Byte) : Bool :=
  match q.framing with
  | .params c' received => c' == c && received.isPrefixOf bytes && decide (received.length < bytes.length)
  | _ => false

/-- The port at the taking of an atomic command with these parameter bytes (R187, R188), the last of which has just
completed. A port that was collecting them has received the rest; any other port has received the whole command, whose
command byte first ends what the port was doing. -/
def Port.atTaking (q : Port) (c : Cmd) (bytes : List Byte) : Port :=
  if bytes.isEmpty then q.commandByte
  else if q.collects c bytes then { q with dataOut := 0, unfinished := none, framing := .idle }
  else { q.commandByte with dataOut := 0 }

/-- An atomic command taken on a port: its role is checked, then it is carried out (R188). -/
def State.takeAtomic (s : State) (p : PortId) (c : Cmd) (body : State → State) : State :=
  if p.accepts c then body s else s.refuse p .role

/-- The row of an atomic command, up to the taking: nothing happens on a port that ignores its clock (R184). -/
def State.atomicRow (s : State) (p : PortId) (c : Cmd) (bytes : List Byte) (body : State → State) : State :=
  if (s.port p).ignoring then s
  else (s.setPort p ((s.port p).atTaking c bytes)).takeAtomic p c body

/-- A command of a head port acts on the head whose port carries it. -/
def withHead (p : PortId) (f : Head → State → State) (s : State) : State :=
  match p.head? with
  | some h => f h s
  | none => s

/-! ### Hold Control (R156 to R158) -/

/-- The set holds the reason. -/
def Reasons.has (r : Reasons) : Reason → Bool
  | .operator => r.operator | .line => r.line | .pullFail => r.pullFail | .restart => r.restart
/-- The set with a reason added. -/
def Reasons.insert (r : Reasons) : Reason → Reasons
  | .operator => { r with operator := true } | .line => { r with line := true }
  | .pullFail => { r with pullFail := true } | .restart => { r with restart := true }
/-- The set of one reason. -/
def Reasons.single (x : Reason) : Reasons := Reasons.empty.insert x
/-- The set without the reasons of another. -/
def Reasons.diff (r q : Reasons) : Reasons :=
  ⟨r.operator && !q.operator, r.line && !q.line, r.pullFail && !q.pullFail, r.restart && !q.restart⟩
/-- The reasons of both sets. -/
def Reasons.inter (r q : Reasons) : Reasons :=
  ⟨r.operator && q.operator, r.line && q.line, r.pullFail && q.pullFail, r.restart && q.restart⟩

/-- A code is stored (R163). -/
def Hold.codeStored (h : Hold) : Bool := h.code != 0

/-- HOLD posted to all four ports with the hold state as it stands (R158). -/
def State.postHold (s : State) (cause : Nat) (added removed : Reasons) : State :=
  s.postAll (.hold cause s.hold.reasons s.hold.enable added removed s.hold.codeStored)

/-- A reason added (R157): nothing if it is present, else it joins the set, the enable is cleared and HOLD is posted. -/
def State.addReason (s : State) (cause : Nat) (r : Reason) : State :=
  if s.hold.reasons.has r then s
  else
    { s with hold := { s.hold with reasons := s.hold.reasons.insert r, enable := false } }.postHold cause (.single r) .empty

/-- Reasons removed by one event (R157): nothing if none of them is present, else one HOLD is posted. The enable is left
as it is, which is clear (R156). -/
def State.removeReasons (s : State) (cause : Nat) (rs : Reasons) : State :=
  if s.hold.reasons.inter rs = .empty then s
  else
    { s with hold := { s.hold with reasons := s.hold.reasons.diff rs } }.postHold cause .empty (s.hold.reasons.inter rs)

/-- Hold Control at an accepted RUN (R165): the enable is set, and HOLD posted, if the set is empty and it is clear. -/
def State.askEnable (s : State) : State :=
  if s.hold.reasons = .empty ∧ s.hold.enable = false then
    { s with hold := { s.hold with enable := true } }.postHold 6 .empty .empty
  else s

/-- Issue is withheld by Hold Control (R48). -/
def State.held (s : State) : Bool := s.hold.reasons != .empty || !s.hold.enable

/-! ### Feeds -/

/-- The feed is RUNNING with delivery PUSH (R51). -/
def Feed.pushing (f : Feed) : Bool := f.state == .running && f.delivery == .push

/-- The feed leaves its state for OFF: no stop reason, and no fill request (R51). -/
def Feed.turnOff (f : Feed) : Feed := { f with state := .off, fill := false }

/-- The feed is stopped if it is RUNNING, which withdraws its fill request (R39, R51). -/
def Feed.stop (f : Feed) (why : StopReason) : Feed :=
  if f.state = .running then { f with state := .stopped why, fill := false } else f

/-- A trigger of an issue pass at one feed (R51). -/
def Feed.trigger (f : Feed) : Feed := if f.pushing then { f with fill := true } else f

/-- A trigger of an issue pass: the fill request of every RUNNING PUSH feed becomes pending (R51). -/
def State.trigger (s : State) : State :=
  { s with issuer := { s.issuer with feeds := ⟨s.issuer.feeds.a.trigger, s.issuer.feeds.b.trigger⟩ } }

/-- The cursors of both feeds made absent (R63). -/
def State.clearCursors (s : State) : State :=
  { s with issuer := { s.issuer with
      feeds := ⟨{ s.issuer.feeds.a with cursor := none }, { s.issuer.feeds.b with cursor := none }⟩ } }

/-- A head's STOP line is asserted exactly while its touch latch is set (R42). -/
def State.stopLine (s : State) (h : Head) : Bool := (s.feed h).latch

end Sys2Proof.Machine
end

