-- ==== Sys2Proof/Machine/ScreenOps.lean ====
section
/-! DEFINITION. Operations of the Screen Composer that events of every block share: field texts, the banner, writes of
cells, dirty rows and the start of a row transfer. `State.finish` is what every event ends with. -/

namespace Sys2Proof.Machine

/-! ### Texts -/

/-- The codes of the characters of a text. -/
def textOf (t : String) : List Byte := t.toList.map (fun c => b8 c.toNat)

/-- The decimal digits of a number, the last one first, given at least as many steps as it has digits. -/
def digitsRev : Nat → Nat → List Nat
  | 0, _ => []
  | k + 1, n => (n % 10) :: (if n < 10 then [] else digitsRev k (n / 10))

/-- A number in decimal without leading zeros (R175). No number of a field has more than ten digits. -/
def decimal (n : Nat) : List Byte := ((digitsRev 10 n).reverse).map (fun d => b8 (48 + d))

/-- One hexadecimal digit with capital letters (R176). -/
def hexDigit (n : Nat) : Byte := b8 (if n < 10 then 48 + n else 55 + n)

/-- A strip serial as eight hexadecimal digits (R176). -/
def hex8 (n : Nat) : List Byte := [7, 6, 5, 4, 3, 2, 1, 0].map (fun i => hexDigit (n / 16 ^ i % 16))

/-- The PROGRESS field (R176). -/
def progressText (zone : Option StripRecord) (map : Option StripMap) (program : Nat → Option Program) : List (List Byte) :=
  match zone with
  | none => [textOf "NO STRIP", []]
  | some r =>
    match r.binding with
    | .bound i =>
      let t := (map.map (·.totals)).getD ⟨0, 0, 0, 0, 0⟩
      let u := ((program i).map (·.units)).getD 0
      let w := ((program i).map (·.wires)).getD 0
      [textOf "STRIP " ++ hex8 r.serial.toNat ++ textOf " P" ++ decimal i,
       textOf "DONE " ++ decimal (t.closed + t.skipped) ++ textOf "/" ++ decimal (u * w) ++ textOf " U "
         ++ decimal ((map.map (·.unitsFinished)).getD 0) ++ textOf "/" ++ decimal u]
    | _ => [textOf "STRIP " ++ hex8 r.serial.toNat ++ textOf " WAIT", textOf "NO PROGRAM"]

/-- The state word of a feed (R177). -/
def FeedState.word : FeedState → List Byte
  | .off => textOf "OFF"
  | .running => textOf "RUN"
  | .stopped .fail => textOf "STOP FAIL"
  | .stopped .touch => textOf "STOP TOUCH"

/-- The verdict word (R177). -/
def Verdict.word : Verdict → List Byte
  | .good => textOf "GOOD" | .marginal => textOf "MARGINAL" | .unjudged => textOf "UNJUDGED" | .fail => textOf "FAIL"

/-- The HEAD_A and HEAD_B fields (R177). -/
def headText (h : Head) (f : Feed) (last : Option LastResult) : List (List Byte) :=
  [textOf "HEAD " ++ textOf (match h with | .a => "A" | .b => "B") ++ textOf " " ++ f.state.word ++ textOf " L"
     ++ decimal f.tickets.length,
   match last with
   | none => textOf "LAST NONE"
   | some r =>
     textOf "LAST T" ++ decimal r.number ++ textOf (match r.phase with | .ball => " B " | .stitch => " S ")
       ++ r.verdict.word]

/-- The number of input slots FULL (R125, R178). -/
def InTable.full (t : InTable) : Nat := t.slots.countP (· == .full)
/-- The number of input slots FED (R122). -/
def InTable.fed (t : InTable) : Nat := t.slots.countP (· == .fed)
/-- The slot is STOWED. -/
def OutSlot.isStowed : OutSlot → Bool
  | .stowed _ => true | _ => false
/-- The number of output slots STOWED (R122, R178). -/
def OutTable.stowed (t : OutTable) : Nat := t.slots.countP OutSlot.isStowed
/-- The number of output slots BLOCKED (R122). -/
def OutTable.blocked (t : OutTable) : Nat := t.slots.countP (· == .blocked)
/-- The number of output slots EMPTY (R132, R178). -/
def OutTable.free (t : OutTable) : Nat := t.slots.countP (· == .empty)

/-- The MAGAZINE field (R178). -/
def magazineText (t : Tracker) : List (List Byte) :=
  [textOf "IN " ++ (match t.input with
      | none => textOf "NONE"
      | some i => decimal i.full ++ textOf "/" ++ decimal i.slots.length)
     ++ textOf " POS " ++ textOf (if t.feed.isSome then "F" else "-") ++ textOf (if t.zone.isSome then "Z" else "-")
     ++ textOf (if t.pull.isSome then "P" else "-"),
   textOf "OUT " ++ (match t.output with
      | none => textOf "NONE"
      | some o => decimal o.stowed ++ textOf "/" ++ decimal o.slots.length ++ textOf " FREE " ++ decimal o.free)]

/-- The record is PENDING or TESTING. -/
def PullRecord.open? (r : PullRecord) : Bool := r.state == .pending || r.state == .testing

/-- The PULL field (R178). -/
def pullText (p : PullStore) : List (List Byte) :=
  [textOf "PULL " ++ (if p.period = 0 then textOf "OFF" else textOf "P" ++ decimal p.period)
     ++ textOf " Q" ++ decimal (p.records.countP PullRecord.open?)
     ++ textOf " F" ++ decimal (p.records.countP (fun r => !r.open?))]

/-- The rows of text of an automatic field (R175 to R178). -/
def State.fieldText (s : State) : FieldKind → List (List Byte)
  | .progress => progressText s.tracker.zone s.map s.program?
  | .headA => headText .a (s.feed .a) (s.capture .a).last
  | .headB => headText .b (s.feed .b) (s.capture .b).last
  | .magazine => magazineText s.tracker
  | .pull => pullText s.pull

/-- The least width of a field (R175). -/
def FieldKind.minWidth : FieldKind → Nat
  | .progress => 24 | _ => 20
/-- The least height of a field (R175). -/
def FieldKind.minHeight : FieldKind → Nat
  | .pull => 1 | _ => 2

/-! ### The banner (R179) -/

/-- The state of the banner, HELD with the reasons it names. -/
inductive Banner where
  | none
  | ready
  | held (reasons : Reasons)
deriving DecidableEq, Repr

/-- The banner follows the hold state (R179). -/
def Hold.banner (h : Hold) : Banner :=
  if h.reasons ≠ .empty then .held h.reasons else if h.enable then .none else .ready

/-- Row 0 of a HELD banner (R179). -/
def heldText (r : Reasons) : List Byte :=
  textOf "CELL HELD:" ++ (if r.operator then textOf " OPERATOR" else []) ++ (if r.line then textOf " LINE" else [])
    ++ (if r.pullFail then textOf " PULL_FAIL" else []) ++ (if r.restart then textOf " RESTART" else [])

/-- The text of a row of the banner (R179). -/
def Banner.text (b : Banner) (row : Nat) : List Byte :=
  match b with
  | .none => []
  | .ready => if row = 0 then textOf "READY - RUN TO RESUME" else []
  | .held r => if row = 0 then heldText r else textOf "NO NEW TICKETS - RELEASE AND RUN TO RESUME"

/-- The attribute of the banner: HELD colour 1 with blink set, READY colour 2 with blink clear (R179). -/
def Banner.attr : Banner → Attr
  | .held _ => { colour := 1, blink := true }
  | _ => { colour := 2, blink := false }

/-- The stored cell at a row and column. -/
def Screen.cell (c : Screen) (row col : Nat) : Cell := ((c.cells[row]?).bind (fun r => r[col]?)).getD Cell.blank

/-- The displayed content of a cell (R168): the banner's on rows 0 and 1 while one is shown, else the stored cell. -/
def Screen.displayed (c : Screen) (b : Banner) (row col : Nat) : Cell :=
  if b ≠ .none ∧ row < Config.bannerRows then { ch := (b.text row).getD col 0x20, attr := b.attr } else c.cell row col

/-! ### Writes and dirty rows (R180) -/

/-- A row joins the dirty set. -/
def Screen.markDirty (c : Screen) (row : Nat) : Screen := { c with dirty := c.dirty.setIfInBounds row true }

/-- A cell written. A write of the value the cell holds changes nothing; a write that changes it makes its row dirty
unless the banner covers it (R168, R180). -/
def Screen.write (c : Screen) (b : Banner) (row col : Nat) (x : Cell) : Screen :=
  if c.cell row col = x then c
  else
    let c' := { c with cells := c.cells.setIfInBounds row ((c.cells.getD row (Vector.replicate 48 Cell.blank)).setIfInBounds col x) }
    if b ≠ .none ∧ row < Config.bannerRows then c' else c'.markDirty row

/-- An automatic field rendered into its region (R175): the text of each row left-justified and filled with spaces. -/
def Screen.render (c : Screen) (b : Banner) (r : Region) (attr : Attr) (lines : List (List Byte)) : Screen :=
  (List.range r.height).foldl (fun c y =>
    (List.range r.width).foldl (fun c x =>
      c.write b (r.top + y) (r.left + x) { ch := (lines.getD y []).getD x 0x20, attr := attr }) c) c

/-! ### The DL transmitter (R181) -/

/-- The next byte of the transfer loaded into an empty holding byte. -/
def Screen.load (c : Screen) : Screen :=
  match c.holding, c.tx with
  | none, some ⟨row, x :: rest⟩ => { c with holding := some x, tx := some ⟨row, rest⟩ }
  | _, _ => c

/-- The holding byte passed into an empty shift byte. -/
def Screen.pass (c : Screen) : Screen :=
  match c.shift, c.holding with
  | none, some x => { c with shift := some x, holding := none }
  | _, _ => c

/-- The lowest-numbered dirty row. -/
def Screen.lowestDirty (c : Screen) : Option Nat := (List.range Config.rows).find? (fun r => c.dirty[r]? == some true)

/-- The 97 bytes of a row transfer: select byte, then character and attribute of each displayed cell (R181). -/
def Screen.rowBytes (c : Screen) (b : Banner) (row : Nat) : List Byte :=
  b8 (0x80 + row) :: (List.range Config.columns).flatMap (fun col =>
    [(c.displayed b row col).ch, (c.displayed b row col).attr.toByte])

/-- A transfer of a row starts: the row leaves the dirty set, its displayed cells are captured, and its first bytes fill
the holding byte and an empty shift byte (R181). -/
def Screen.startRow (c : Screen) (b : Banner) (row : Nat) : Screen :=
  ({ c with dirty := c.dirty.setIfInBounds row false, tx := some ⟨row, c.rowBytes b row⟩ }.load).pass.load

/-- While PNLRDY is active and the transmitter is IDLE, a non-empty dirty set starts a transfer of its lowest row
(R181). -/
def Screen.kick (c : Screen) (b : Banner) : Screen :=
  if c.pnlrdy && c.tx.isNone then
    match c.lowestDirty with
    | some row => c.startRow b row
    | none => c
  else c

/-! ### The end of every event -/

/-- The automatic field of a region rendered if the event changed its text (R175). -/
def Screen.refresh (c : Screen) (b : Banner) (old new : State) (r : Option Region) : Screen :=
  match r with
  | some ⟨l, t, w, h, .auto k attr⟩ =>
    if old.fieldText k = new.fieldText k then c else c.render b ⟨l, t, w, h, .auto k attr⟩ attr (new.fieldText k)
  | _ => c

/-- The screen brought up to date within an event that took the part from `old` to `new`: a change of the banner makes rows 0
and 1 dirty (R180), and each automatic field whose text changed is rendered (R175). -/
def State.redraw (old new : State) : Screen :=
  new.screen.regions.toList.foldl (fun c r => c.refresh new.hold.banner old new r)
    (if old.hold.banner = new.hold.banner then new.screen else (new.screen.markDirty 0).markDirty 1)

/-- What the Screen Composer does within an event that took the part from `old` to `new`: the screen is brought up to date, and
a transfer starts if the event changed the dirty set and left it non-empty while the transmitter is IDLE (R181). -/
def State.finish (old new : State) : State :=
  let c := old.redraw new
  { new with screen := if c.dirty = old.screen.dirty then c else c.kick new.hold.banner }

end Sys2Proof.Machine
end

