-- ==== Sys2Proof/Machine/MapOps.lean ====
section
/-! DEFINITION. Operations on the strip map that several blocks request (chapter 2), the removal of a ticket (R57), the
clamp grant (R135) and the map build (R18). -/

namespace Sys2Proof.Machine

/-! ### Programs and wires -/

/-- The program of a slot that holds none; a bound slot always holds one (R3). -/
def Program.blank : Program :=
  { state := .loading, label := 0, units := 0, pitch := 0, wires := 0, tiers := 0, exportRequired := false, table := [] }

/-- The entry of a wire index beyond the table; a READY or IN_USE table has W entries (R1). -/
def WireEntry.blank : WireEntry := { tier := 0, x := 0, limitSet := 0, profile := 0, pullEligible := false }

/-- The entry of a wire (R3). -/
def Program.wire (p : Program) (w : Nat) : WireEntry := p.table.getD w WireEntry.blank

/-- Absolute x of wire w of unit u (R1). -/
def Program.absX (p : Program) (u w : Nat) : Nat := u * p.pitch + (p.wire w).x

/-- The program a map is bound to (R3). -/
def State.boundProgram (s : State) (m : StripMap) : Program := (s.program? m.program).getD Program.blank

/-! ### Totals, units and slots -/

/-- One out of the total of the state left (R19). -/
def Totals.dec (t : Totals) : SlotPhase → Totals
  | .opened => { t with opened := t.opened - 1 }
  | .issued .. => { t with issued := t.issued - 1 }
  | .first .. => { t with first := t.first - 1 }
  | .closed .. => { t with closed := t.closed - 1 }
  | .skipped => { t with skipped := t.skipped - 1 }

/-- One into the total of the state entered (R19). -/
def Totals.inc (t : Totals) : SlotPhase → Totals
  | .opened => { t with opened := t.opened + 1 }
  | .issued .. => { t with issued := t.issued + 1 }
  | .first .. => { t with first := t.first + 1 }
  | .closed .. => { t with closed := t.closed + 1 }
  | .skipped => { t with skipped := t.skipped + 1 }

/-- A slot of the map. -/
def StripMap.slot? (m : StripMap) (u w : Nat) : Option WireSlot := (m.units[u]?).bind (fun r => r.slots[w]?)

/-- Every unclosed count is 0. -/
def UnitRec.allClosed (r : UnitRec) : Bool := r.unclosed.all (· == 0)

/-- The unit is finished: DONE, or SKIPPED with every unclosed count at 0 (R19, R34). -/
def UnitRec.finished (r : UnitRec) : Bool :=
  match r.state with
  | .done _ => true
  | .skipped => r.allClosed
  | .active => false

/-- A slot of tier t in this unit is tier-ready (R28). -/
def UnitRec.tierReady (r : UnitRec) (t : Nat) : Bool := (r.unclosed.take t).all (· == 0)

/-- The unclosed count of a tier falls by one (R27). -/
def UnitRec.decUnclosed (r : UnitRec) (t : Nat) : UnitRec := { r with unclosed := r.unclosed.modify t (· - 1) }

/-- The verdict count rises by one (R27). -/
def UnitRec.countVerdict (r : UnitRec) : Verdict → UnitRec
  | .good => { r with good := r.good + 1 }
  | .marginal => { r with marginal := r.marginal + 1 }
  | .unjudged => { r with unjudged := r.unjudged + 1 }
  | .fail => { r with fail := r.fail + 1 }

/-- The outcome of a unit that becomes DONE (R29). -/
def UnitRec.doneOutcome (r : UnitRec) : UnitOutcome :=
  if 0 < r.fail then .reject else if 0 < r.unjudged then .suspect else .good

/-- An ACTIVE unit with nothing unclosed becomes DONE with its outcome (R29). -/
def UnitRec.settle (r : UnitRec) : UnitRec :=
  if r.state = .active ∧ r.allClosed = true then { r with state := .done r.doneOutcome } else r

/-- A slot of the unit closed with a verdict (R25, R26, R29). -/
def UnitRec.closeOne (r : UnitRec) (tier : Nat) (v : Verdict) : UnitRec := ((r.decUnclosed tier).countVerdict v).settle

/-- A slot of the unit skipped (R23). -/
def UnitRec.skipOne (r : UnitRec) (tier : Nat) : UnitRec :=
  { r.decUnclosed tier with skipped := r.skipped + 1 }

/-- The outcome of a unit, present when it is DONE or SKIPPED (R27). -/
def UnitRec.outcome? (r : UnitRec) : Option UnitOutcome := r.state.outcome?

/-- The number of units with an outcome (R36). -/
def StripMap.outcomes (m : StripMap) (o : UnitOutcome) : Nat := m.units.countP (fun r => r.outcome? == some o)

/-- A unit record replaced; the units finished count rises if that finished the unit (R19). -/
def StripMap.setUnit (m : StripMap) (u : Nat) (old new : UnitRec) : StripMap :=
  { m with
    units := m.units.set u new
    unitsFinished := m.unitsFinished + (if !old.finished && new.finished then 1 else 0) }

/-- A slot of a unit record in a new state. -/
def UnitRec.setPhase (r : UnitRec) (w : Nat) (sl : WireSlot) (ph : SlotPhase) : UnitRec :=
  { r with slots := r.slots.set w { sl with phase := ph } }

/-- A transition request on a slot (R22): `req` gives, for the unit and the state of the slot, the state to enter and the
change of the unit record, or nothing where the request does not apply. An applied transition moves the totals, the unit
record and the count of finished units. -/
def StripMap.request (m : StripMap) (u w : Nat) (req : UnitRec → SlotPhase → Option (SlotPhase × (UnitRec → UnitRec))) :
    StripMap :=
  match m.units[u]? with
  | none => m
  | some r =>
    match r.slots[w]? with
    | none => m
    | some sl =>
      match req r sl.phase with
      | none => m
      | some (ph, change) =>
        { m.setUnit u r (change (r.setPhase w sl ph)) with totals := (m.totals.dec sl.phase).inc ph }

/-- OPEN to ISSUED (R23). -/
def requestIssue (h : Head) (n : Nat) (_ : UnitRec) : SlotPhase → Option (SlotPhase × (UnitRec → UnitRec))
  | .opened => some (.issued h n, id)
  | _ => none

/-- ISSUED to FIRST with the ball result (R24). -/
def requestBall (h : Head) (n : Nat) (ball : BondResult) (_ : UnitRec) : SlotPhase → Option (SlotPhase × (UnitRec → UnitRec))
  | .issued h' n' => if h' = h ∧ n' = n then some (.first h n ball, id) else none
  | _ => none

/-- FIRST to CLOSED with the stitch result (R25). -/
def requestStitch (h : Head) (n tier : Nat) (stitch : BondResult) (_ : UnitRec) :
    SlotPhase → Option (SlotPhase × (UnitRec → UnitRec))
  | .first h' n' ball =>
    if h' = h ∧ n' = n then
      some (.closed ball (some stitch) (Verdict.worse ball.verdict stitch.verdict) (closeCause ball stitch),
        fun r => r.closeOne tier (Verdict.worse ball.verdict stitch.verdict))
    else none
  | _ => none

/-- The release of a ticket's slot by CANCEL or FRESET: an ISSUED slot returns to OPEN, or is skipped in a SKIPPED unit
(R23); a FIRST slot closes FAIL, ABANDONED, with its ball result (R26). -/
def requestRelease (h : Head) (n tier : Nat) (r : UnitRec) : SlotPhase → Option (SlotPhase × (UnitRec → UnitRec))
  | .issued h' n' =>
    if h' = h ∧ n' = n then
      (if r.state = .skipped then some (.skipped, fun r => r.skipOne tier) else some (.opened, id))
    else none
  | .first h' n' ball =>
    if h' = h ∧ n' = n then some (.closed ball none .fail .abandoned, fun r => r.closeOne tier .fail) else none
  | _ => none

/-- A map with its requests applied. -/
def State.onMap (s : State) (f : StripMap → StripMap) : State := { s with map := s.map.map f }

/-! ### Completion (R34) -/

/-- The map becomes complete at the event that brings the units finished count to U; MAP_COMPLETE is posted to all four
ports, once for the map (R34). -/
def State.checkComplete (s : State) : State :=
  match s.map with
  | none => s
  | some m =>
    if !m.complete && m.unitsFinished == m.units.length then
      { s with map := some { m with complete := true } }.postAll
        (.mapComplete m.serial (m.outcomes .reject) (m.outcomes .suspect))
    else s

/-! ### The clamp (R133, R135) -/

/-- A window capture counts as an open ball capture while it is BOUND in phase BALL (R114). -/
def BondCapture.openBall (c : BondCapture) : Bool :=
  match c.window with
  | some ⟨.bound _ .ball, _, _, _, _, _⟩ => true
  | _ => false

/-- The number of FIRST slots of the map (R133). -/
def State.firstCount (s : State) : Nat := (s.map.map (fun m => m.totals.first)).getD 0

/-- The number of open ball captures of both heads (R114). -/
def State.openBalls (s : State) : Nat :=
  (if (s.capture .a).openBall then 1 else 0) + (if (s.capture .b).openBall then 1 else 0)

/-- The clamp wait count (R133). -/
def State.clampWait (s : State) : Nat := s.firstCount + s.openBalls

/-- The serial of the strip at ZONE; with no strip there the clamp is granted at once and no notice needs it. -/
def State.zoneSerial (s : State) : W32 := (s.tracker.zone.map (·.serial)).getD 0

/-- While the clamp is REQUESTED, the event that brings the wait count to 0 grants it and posts CLAMP_GRANTED to MH
(R135). -/
def State.checkClamp (s : State) : State :=
  if s.tracker.clamp = .requested ∧ s.clampWait = 0 then
    { s with tracker := { s.tracker with clamp := .granted } }.post .mh (.clampGranted s.zoneSerial)
  else s

/-! ### Removing a ticket (R57, R58, R111, R112) -/

/-- The ticket of a number in a head's list. -/
def Feed.find (f : Feed) (n : Nat) : Option Ticket := f.tickets.find? (fun t => t.number == n)

/-- A ticket removed from the list; the tickets behind it close up (R41). -/
def Feed.remove (f : Feed) (t : Ticket) : Feed := { f with tickets := f.tickets.erase t }

/-- The armed ticket cleared if it is the one removed (R57), and a window BOUND to it made STRAY (R111, R112). -/
def BondCapture.cut (c : BondCapture) (t : Ticket) (why : StrayReason) : BondCapture :=
  { c with
    armed := c.armed.filter (fun a => a.ticket != t)
    window := c.window.map (fun w =>
      match w.binding with
      | .bound t' ph => if t' = t then { w with binding := .stray why t.number ph } else w
      | _ => w) }

/-- One ticket of a head cancelled (R57): its slot released, the ticket removed, disarmed, a bound window made stray;
then completion (R34) and the clamp grant (R135), in that order. -/
def State.cancelTicket (s : State) (h : Head) (why : StrayReason) (t : Ticket) : State :=
  let s1 := s.onMap (fun m => m.request t.unit t.wire (requestRelease h t.number t.tier))
  let s2 := s1.setFeed h ((s1.feed h).remove t)
  let s3 := s2.setCapture h ((s2.capture h).cut t why)
  s3.checkComplete.checkClamp

/-! ### Skipping a unit (R30) -/

/-- The number of OPEN slots of the unit in a tier. -/
def UnitRec.openOfTier (r : UnitRec) (table : List WireEntry) (t : Nat) : Nat :=
  (r.slots.zip table).countP (fun x => x.1.phase == .opened && x.2.tier == t)

/-- The number of OPEN slots of the unit. -/
def UnitRec.openCount (r : UnitRec) : Nat := r.slots.countP (fun sl => sl.phase == .opened)

/-- The slot is ISSUED or FIRST. -/
def SlotPhase.held : SlotPhase → Bool
  | .issued .. => true | .first .. => true | _ => false

/-- The number of slots of the unit that are ISSUED or FIRST (R32). -/
def UnitRec.heldCount (r : UnitRec) : Nat := r.slots.countP (fun sl => sl.phase.held)

/-- An OPEN slot becomes SKIPPED (R30). -/
def WireSlot.skip (sl : WireSlot) : WireSlot := if sl.phase = .opened then { sl with phase := .skipped } else sl

/-- The unit record after a skip (R30). -/
def UnitRec.skip (r : UnitRec) (table : List WireEntry) : UnitRec :=
  match r.state with
  | .active =>
    { r with
      state := .skipped
      unclosed := r.unclosed.mapIdx (fun t k => k - r.openOfTier table t)
      skipped := r.skipped + r.openCount
      slots := r.slots.map WireSlot.skip }
  | .done _ => { r with state := .skipped }
  | .skipped => r

/-- The number of slots a skip turns SKIPPED (R30, R32). -/
def UnitRec.skipTurns (r : UnitRec) : Nat := if r.state = .active then r.openCount else 0

/-- A unit of the map skipped (R30). -/
def StripMap.skipUnit (m : StripMap) (table : List WireEntry) (u : Nat) : StripMap :=
  match m.units[u]? with
  | none => m
  | some r =>
    { m.setUnit u r (r.skip table) with
      totals := { m.totals with opened := m.totals.opened - r.skipTurns, skipped := m.totals.skipped + r.skipTurns } }

/-! ### The map build (R18) -/

/-- The number of wires of each tier 0..3 (R18, stage 3). -/
def Program.tierCounts (p : Program) : List Nat :=
  (List.range 4).map (fun t => if t < p.tiers then p.table.countP (fun e => e.tier == t) else 0)

/-- A unit record at the third stage. -/
def Program.freshUnit (p : Program) : UnitRec :=
  { state := .active, unclosed := p.tierCounts, good := 0, marginal := 0, unjudged := 0, fail := 0, skipped := 0,
    slots := List.replicate p.wires { phase := .opened, pullSelected := false } }

/-- The map after the first three stages. -/
def Program.freshMap (p : Program) (slot : Nat) (serial : W32) : StripMap :=
  { serial := serial, program := slot, exportTaken := false, complete := false,
    totals := { opened := p.units * p.wires, issued := 0, first := 0, closed := 0, skipped := 0 }, unitsFinished := 0,
    units := List.replicate p.units p.freshUnit }

/-- The skip mask applied in ascending order of units (R31). -/
def StripMap.applyMask (m : StripMap) (table : List WireEntry) (mask : List Byte) : StripMap :=
  (List.range m.units.length).foldl (fun m u => if flagOf mask u then m.skipUnit table u else m) m

/-- The strip is sampled: the counter, raised by one, equals P (R141). -/
def PullStore.samples (p : PullStore) : Bool := p.period != 0 && p.counter + 1 == p.period

/-- The sample counter after a map build (R141). -/
def PullStore.countAfter (p : PullStore) : Nat :=
  if p.period = 0 then 0 else if p.counter + 1 = p.period then 0 else p.counter + 1

/-- The slots marked in a sampled strip, in marking order (R142). -/
def StripMap.marks (m : StripMap) (prog : Program) (plan : PullStore) : List SlotId :=
  (plan.units.flatMap (fun u =>
    match m.units[u]? with
    | some r =>
      if r.state = .skipped then []
      else ((List.range prog.wires).filter (fun w => (prog.wire w).pullEligible)).map (fun w => ⟨u, w⟩)
    | none => [])).take plan.limit

/-- The pull-selected mark of a slot set (R142). -/
def StripMap.mark (m : StripMap) (i : SlotId) : StripMap :=
  { m with units := m.units.modify i.unit (fun r =>
      { r with slots := r.slots.modify i.wire (fun sl => { sl with pullSelected := true }) }) }

/-- The number of units the mask skipped (R126). -/
def StripMap.skippedUnits (m : StripMap) : Nat := m.units.countP (fun r => r.state == .skipped)

/-- The map of a strip built from a program slot in the six stages of R18, with what the same event does in the other
blocks: the strip is bound (R126, R127), the slot becomes IN_USE (R2), the cursors are made absent and the build is a
trigger (R63). -/
def State.buildMap (s : State) (slot : Nat) (prog : Program) (strip : StripRecord) : State :=
  let mask := (strip.skipMask.map (·.toList)).getD []
  let m1 := (prog.freshMap slot strip.serial).applyMask prog.table mask
  let marks := if s.pull.samples then m1.marks prog s.pull else []
  let m2 := marks.foldl StripMap.mark m1
  let s1 : State := { s with
    map := some m2
    pull := { s.pull with counter := s.pull.countAfter, selection := marks.map (fun i => ⟨i.unit, i.wire, none⟩) }
    tracker := { s.tracker with
      zone := some { strip with binding := .bound slot, sampled := some s.pull.samples } } }
  (s1.checkComplete.setProgram slot (some { prog with state := .inUse })).clearCursors.trigger

/-- The map discarded: it ceases to exist, its program slot returns to READY and the selection list goes with it (R37,
R143). -/
def State.discardMap (s : State) : State :=
  match s.map with
  | none => s
  | some m =>
    let s1 : State := { s with map := none, pull := { s.pull with selection := [] } }
    s1.setProgram m.program ((s.program? m.program).map (fun p => { p with state := .ready }))

end Sys2Proof.Machine
end

