-- ==== Sys2Proof/Machine/Programs.lean ====
section
/-! DEFINITION. The commands of chapter 1: program slots, the wire table, the selection and the limit sets. -/

namespace Sys2Proof.Machine

/-- The selection after a slot has left READY by PLOAD or PFREE (R5). -/
def ProgramStore.deselect (s : ProgramStore) (slot : Nat) : ProgramStore :=
  { s with selection := if s.selection = some slot then none else s.selection }

/-- The slot is IN_USE. -/
def State.inUse (s : State) (slot : Nat) : Bool :=
  match s.program? slot with
  | some p => p.state == .inUse
  | none => false

/-! ### PLOAD -/

/-- The values of a program header that PLOAD accepts (R4). -/
def headerOk (units pitch wires tiers flags : Nat) : Bool :=
  decide (1 ≤ units ∧ units ≤ 64 ∧ 1 ≤ pitch ∧ 1 ≤ wires ∧ wires ≤ 384 ∧ units * wires ≤ Config.maxStripWires
    ∧ 1 ≤ tiers ∧ tiers ≤ 4 ∧ flags ≤ 1)

/-- The program of a slot that PLOAD has just loaded (R4). -/
def loadedProgram (label : W16) (units pitch wires tiers flags : Nat) : Program :=
  { state := .loading, label := label, units := units, pitch := pitch, wires := wires, tiers := tiers,
    exportRequired := flags == 1, table := [] }

/-- PLOAD at its taking (R4, R5); detail 0 of OK: (30). -/
def doPload (p : PortId) (slot : Nat) (label : W16) (units pitch wires tiers flags : Nat) (s : State) : State :=
  if 3 < slot then s.refuse p .range
  else if s.inUse slot then s.refuse p .inUse
  else if !headerOk units pitch wires tiers flags then s.refuse p .range
  else
    let s1 := s.setProgram slot (some (loadedProgram label units pitch wires tiers flags))
    { s1 with programs := s1.programs.deselect slot }.respond p .ok 0 []

/-- PLOAD. -/
def execPload (p : PortId) (slot : Byte) (label : W16) (units : Byte) (pitch wires : W16) (tiers flags : Byte)
    (s : State) : Host.Outcome State Fault Refusal :=
  .next (s.finish (s.atomicRow p .pload (paramBytes (.pload p slot label units pitch wires tiers flags))
    (doPload p slot.toNat label units.toNat pitch.toNat wires.toNat tiers.toNat flags.toNat)))

/-! ### PWIRE -/

/-- The slot byte of PWIRE on a port that waits for it (R6). -/
def State.takePwireSlot (s : State) (p : PortId) (slot : Nat) : State :=
  let q := s.port p
  if 3 < slot then s.setPort p { q with previous := .range, framing := .ignore }
  else if (s.program? slot).isNone then s.setPort p { q with previous := .state, framing := .ignore }
  else s.setPort p { q with previous := .ok, framing := .pwireGroups slot [] }

/-- The wire entry that the six bytes of a group describe. -/
def WireEntry.ofBytes (bs : List Byte) : WireEntry :=
  { tier := p8 bs 0, x := p16 bs 1, limitSet := p8 bs 3, profile := p8 bs 4, pullEligible := (bs.getD 5 0).getLsbD 0 }

/-- A group passes the checks of R7. -/
def groupOk (p : Program) (e : WireEntry) : Bool := decide (e.tier < p.tiers ∧ e.limitSet ≤ 15 ∧ e.profile ≤ 63)

/-- A program with an entry appended, READY if it is the W-th (R7). -/
def Program.append (p : Program) (e : WireEntry) : Program :=
  { p with
    table := p.table ++ [e]
    state := if p.table.length + 1 = p.wires then .ready else p.state }

/-- A complete group of PWIRE (R7, R8). -/
def State.takePwireGroup (s : State) (p : PortId) (slot : Nat) (bytes : List Byte) : State :=
  let q := s.port p
  let e := WireEntry.ofBytes bytes
  match s.program? slot with
  | none => s.setPort p { q with previous := .state, framing := .ignore }
  | some prog =>
    if !groupOk prog e then s.setPort p { q with previous := .range, framing := .ignore }
    else if prog.wires ≤ prog.table.length then s.setPort p { q with previous := .full, framing := .ignore }
    else (s.setPort p { q with framing := .pwireGroups slot [] }).setProgram slot (some (prog.append e))

/-! ### PSEL and PFREE -/

/-- The five data bytes of PSEL: the slot as it stands (R9). -/
def pselData (o : Option Program) : List Byte :=
  b8 (programCode o) :: be16 ((o.map (·.label.toNat)).getD 0) ++ be16 ((o.map (·.table.length)).getD 0)

/-- The strip at ZONE that waits for a program (R10). -/
def State.waitingStrip (s : State) : Option StripRecord := s.tracker.zone.filter (fun r => r.binding == .waiting)

/-- PSEL at its taking (R9, R10). -/
def doPsel (p : PortId) (v : Nat) (s : State) : State :=
  if v = 255 then { s with programs := { s.programs with selection := none } }.respond p .ok 0 []
  else if 3 < v then s.refuse p .range
  else
    match s.program? v with
    | none => s.respond p .state 0 (pselData none)
    | some prog =>
      if prog.state = .loading then s.respond p .state 0 (pselData (some prog))
      else
        let s1 : State := { s with programs := { s.programs with selection := some v } }
        match s.waitingStrip with
        | none => s1.respond p .ok 0 (pselData (some prog))
        | some r => (s1.buildMap v prog r).respond p .ok 1 (pselData (some prog))

/-- PSEL. -/
def execPsel (p : PortId) (slot : Byte) (s : State) : Host.Outcome State Fault Refusal :=
  .next (s.finish (s.atomicRow p .psel (paramBytes (.psel p slot)) (doPsel p slot.toNat)))

/-- PFREE at its taking (R11); detail 0 of OK: (30). -/
def doPfree (p : PortId) (v : Nat) (s : State) : State :=
  if 3 < v then s.refuse p .range
  else if s.inUse v then s.refuse p .inUse
  else
    let old := s.program? v
    let s1 := s.setProgram v none
    { s1 with programs := s1.programs.deselect v }.respond p .ok 0
      (b8 (programCode old) :: be16 ((old.map (fun q : Program => q.label.toNat)).getD 0))

/-- PFREE. -/
def execPfree (p : PortId) (slot : Byte) (s : State) : Host.Outcome State Fault Refusal :=
  .next (s.finish (s.atomicRow p .pfree (paramBytes (.pfree p slot)) (doPfree p slot.toNat)))

/-! ### LIMSET -/

/-- The limits of a phase that its sixteen bytes carry, the first of which is byte `i`. -/
def PhaseLimits.ofBytes (bs : List Byte) (i : Nat) : PhaseLimits :=
  { defLo := p16 bs i, defHi := p16 bs (i + 2), mDef := p16 bs (i + 4), usiLo := p16 bs (i + 6), usiHi := p16 bs (i + 8),
    mUsi := p16 bs (i + 10), durMin := p16 bs (i + 12), durMax := p16 bs (i + 14) }

/-- The limits of a phase of the row. -/
def PhaseLimits.ofWords (w : PhaseWords) : PhaseLimits :=
  { defLo := w.defLo.toNat, defHi := w.defHi.toNat, mDef := w.mDef.toNat, usiLo := w.usiLo.toNat, usiHi := w.usiHi.toNat,
    mUsi := w.mUsi.toNat, durMin := w.durMin.toNat, durMax := w.durMax.toNat }

/-- The checks of LIMSET on one phase (R13). -/
def PhaseLimits.ok (l : PhaseLimits) : Bool :=
  decide (l.defLo ≤ l.defHi ∧ l.usiLo ≤ l.usiHi ∧ l.durMin ≤ l.durMax ∧ l.durMax ≤ Config.captureCap)

/-- LIMSET at its taking (R13); detail 0 of OK: (30). -/
def doLimset (p : PortId) (i : Nat) (ball stitch : PhaseLimits) (pullMin : Nat) (s : State) : State :=
  if 15 < i then s.refuse p .range
  else if !ball.ok || !stitch.ok then s.refuse p .range
  else
    { s with programs := { s.programs with
        limits := s.programs.limits.setIfInBounds i ⟨true, ball, stitch, pullMin⟩ } }.respond p .ok 0 []

/-- LIMSET. -/
def execLimset (p : PortId) (index : Byte) (ball stitch : PhaseWords) (pullMin : W16) (s : State) :
    Host.Outcome State Fault Refusal :=
  .next (s.finish (s.atomicRow p .limset (paramBytes (.limset p index ball stitch pullMin))
    (doLimset p index.toNat (.ofWords ball) (.ofWords stitch) pullMin.toNat)))

end Sys2Proof.Machine
end

