-- ==== Sys2Proof/Machine/Map.lean ====
section
/-! DEFINITION. The commands of chapter 2: SKIPU, MAPRD and MAPTAKE. -/

namespace Sys2Proof.Machine

/-! ### SKIPU -/

/-- The map after SKIPU of a unit (R32): the unit is skipped, and the export-taken flag is cleared if its state changed. -/
def StripMap.skipCommand (m : StripMap) (table : List WireEntry) (u : Nat) (changed : Bool) : StripMap :=
  let m' := m.skipUnit table u
  { m' with exportTaken := m'.exportTaken && !changed }

/-- The five data bytes of SKIPU: the unit's state before, the slots turned, the slots held (R32). -/
def skipuData (r : UnitRec) : List Byte := b8 r.state.code :: be16 r.skipTurns ++ be16 r.heldCount

/-- SKIPU at its taking (R32); a skip that turned a slot is a trigger (R30, R51); detail 0 of OK: (30). -/
def doSkipu (p : PortId) (u : Nat) (s : State) : State :=
  match s.map with
  | none => s.refuseState p .noMap
  | some m =>
    match m.units[u]? with
    | none => s.refuse p .range
    | some r =>
      let table := (s.boundProgram m).table
      let s1 := { s with map := some (m.skipCommand table u (r.state != UnitState.skipped)) }.checkComplete
      (if 0 < r.skipTurns then s1.trigger else s1).respond p .ok 0 (skipuData r)

/-- SKIPU. -/
def execSkipu (p : PortId) (unit : Byte) (s : State) : Host.Outcome State Fault Refusal :=
  .next (s.finish (s.atomicRow p .skipu (paramBytes (.skipu p unit)) (doSkipu p unit.toNat)))

/-! ### MAPRD -/

/-- A unit record as twelve bytes (section 11.8; bits 5 to 7 of byte 1: (37)). -/
def UnitRec.bytes (r : UnitRec) (u : Nat) : List Byte :=
  let o := match r.outcome? with
    | some o => 4 + 8 * o.code
    | none => 0
  [b8 u, b8 (r.state.code + o)] ++ be16 r.good ++ be16 r.marginal ++ be16 r.unjudged ++ be16 r.fail ++ be16 r.skipped

/-- The ball result of a slot, if it holds one (R20). -/
def SlotPhase.ball? : SlotPhase → Option BondResult
  | .first _ _ b => some b
  | .closed b _ _ _ => some b
  | _ => none

/-- The stitch result of a slot, if it holds one (R20). -/
def SlotPhase.stitch? : SlotPhase → Option BondResult
  | .closed _ st _ _ => st
  | _ => none

/-- The owning head and ticket number of a slot, if it holds them (R20). -/
def SlotPhase.owner? : SlotPhase → Option (Head × Nat)
  | .issued h n => some (h, n)
  | .first h n _ => some (h, n)
  | _ => none

/-- The close verdict and fail cause of a slot, if it is CLOSED (R20). -/
def SlotPhase.close? : SlotPhase → Option (Verdict × Cause)
  | .closed _ _ v c => some (v, c)
  | _ => none

/-- Cause and verdict in one byte, 0 where the result is absent (section 11.8; bits 6 and 7: (37)). -/
def verdictByte (o : Option (Verdict × Cause)) : Byte :=
  match o with
  | some (v, c) => b8 (c.code + 16 * v.code)
  | none => 0

/-- A wire slot as twenty bytes (section 11.8). -/
def WireSlot.bytes (sl : WireSlot) (u w : Nat) : List Byte :=
  let ball := sl.phase.ball?
  let stitch := sl.phase.stitch?
  let owner := sl.phase.owner?
  let head := match owner with
    | some (h, _) => h.code
    | none => 0
  let number := match owner with
    | some (_, n) => n
    | none => 0
  let flags := sl.phase.code + 8 * head + (if sl.pullSelected then 16 else 0) + (if ball.isSome then 32 else 0)
    + (if stitch.isSome then 64 else 0) + (if sl.phase.close?.isSome then 128 else 0)
  let field := fun (f : BondResult → Nat) (o : Option BondResult) => be16 ((o.map f).getD 0)
  [b8 u] ++ be16 w ++ [b8 flags, b8 number, verdictByte (ball.map (fun r => (r.verdict, r.cause))),
      verdictByte (stitch.map (fun r => (r.verdict, r.cause))), verdictByte sl.phase.close?]
    ++ field BondResult.DEF ball ++ field BondResult.DEF stitch ++ field BondResult.USI ball
    ++ field BondResult.USI stitch ++ field BondResult.DUR ball ++ field BondResult.DUR stitch

/-- The data of MAPRD: the unit records, then the slot records in unit-major order (R35). -/
def StripMap.readout (m : StripMap) (f n : Nat) : List Byte :=
  let units := ((m.units.drop f).take n).zipIdx f
  units.flatMap (fun x => x.1.bytes x.2)
    ++ units.flatMap (fun x => x.1.slots.zipIdx.flatMap (fun y => y.1.bytes x.2 y.2))

/-- MAPRD at its taking (R35). -/
def doMaprd (p : PortId) (f n : Nat) (s : State) : State :=
  match s.map with
  | none => s.refuseState p .noMap
  | some m =>
    if n = 0 ∨ m.units.length < f + n then s.refuse p .range
    else s.respond p .ok (if m.complete then 1 else 0) (m.readout f n)

/-- MAPRD. -/
def execMaprd (p : PortId) (first count : Byte) (s : State) : Host.Outcome State Fault Refusal :=
  .next (s.finish (s.atomicRow p .maprd (paramBytes (.maprd p first count)) (doMaprd p first.toNat count.toNat)))

/-! ### MAPTAKE -/

/-- The eight data bytes of MAPTAKE (R36). -/
def StripMap.takeData (m : StripMap) : List Byte :=
  be32 m.serial.toNat ++ [b8 (m.outcomes .good), b8 (m.outcomes .suspect), b8 (m.outcomes .reject), b8 (m.outcomes .skipped)]

/-- MAPTAKE at its taking (R36); detail 0 of OK: (30). -/
def doMaptake (p : PortId) (s : State) : State :=
  match s.map with
  | none => s.refuseState p .noMap
  | some m =>
    if m.complete = false then s.refuseState p .incomplete
    else { s with map := some { m with exportTaken := true } }.respond p .ok 0 m.takeData

/-- MAPTAKE. -/
def execMaptake (p : PortId) (s : State) : Host.Outcome State Fault Refusal :=
  .next (s.finish (s.atomicRow p .maptake (paramBytes (.maptake p)) (doMaptake p)))

end Sys2Proof.Machine
end

