-- ==== Sys2Proof/Machine/Issue.lean ====
section
/-! DEFINITION. The Ticket Issuer (chapter 3): feeds, scan and eligibility, the arbiter, CLAIM, CANCEL, FRESET, GUARD and
HSTAT, with CLRSTOP (chapter 5). -/

namespace Sys2Proof.Machine

/-! ### RUN and HALT -/

/-- The values RUN accepts (R43). -/
def runOk (traversal fixedUnit order delivery depth : Nat) : Bool :=
  decide (traversal ≤ 2 ∧ (traversal = 2 → fixedUnit ≤ 63) ∧ order ≤ 1 ∧ delivery ≤ 1 ∧ 1 ≤ depth ∧ depth ≤ 4)

/-- The feed that an accepted RUN leaves (R39, R43). A feed that takes delivery PULL loses its fill request (R51). -/
def Feed.run (f : Feed) (count traversal fixedUnit order delivery depth : Nat) : Feed :=
  { f with
    state := .running
    count := count
    traversal := .ofCode traversal
    fixedUnit := fixedUnit
    order := .ofCode order
    delivery := .ofCode delivery
    depth := depth
    fill := f.fill && Delivery.ofCode delivery == .push }

/-- RUN of a head at its taking (R43): the feed, the issue enable, and the trigger of R51. -/
def doRun (p : PortId) (count traversal fixedUnit order delivery depth : Nat) (h : Head) (s : State) : State :=
  if !runOk traversal fixedUnit order delivery depth then s.refuse p .range
  else if (s.feed h).latch then s.refuseState p .touch
  else
    let s1 := s.setFeed h ((s.feed h).run count traversal fixedUnit order delivery depth)
    s1.askEnable.trigger.respond p .ok (if s.hold.reasons = .empty ∧ s.hold.enable = false then 1 else 0) []

/-- RUN. -/
def execRun (p : PortId) (count : W16) (traversal fixedUnit order delivery depth : Byte) (s : State) :
    Host.Outcome State Fault Refusal :=
  .next (s.finish (s.atomicRow p .run (paramBytes (.run p count traversal fixedUnit order delivery depth))
    (withHead p (doRun p count.toNat traversal.toNat fixedUnit.toNat order.toNat delivery.toNat depth.toNat))))

/-- HALT of a head at its taking (R45); detail 0 of OK: (30). -/
def doHalt (p : PortId) (h : Head) (s : State) : State :=
  (s.setFeed h (s.feed h).turnOff).respond p .ok 0 [b8 (s.feed h).state.code]

/-- HALT. -/
def execHalt (p : PortId) (s : State) : Host.Outcome State Fault Refusal :=
  .next (s.finish (s.atomicRow p .halt (paramBytes (.halt p)) (withHead p (doHalt p))))

/-! ### Scan and eligibility -/

/-- The units of a feed's scope in scan order (R46). -/
def Feed.unitOrder (f : Feed) (units : Nat) : List Nat :=
  match f.traversal with
  | .ascend => List.range units
  | .descend => (List.range units).reverse
  | .fixed => if f.fixedUnit < units then [f.fixedUnit] else []

/-- The slots of some units in scan order, W wires to a unit (R46). -/
def slotsOf (units : List Nat) (wires : Nat) : List SlotId :=
  units.flatMap (fun u => (List.range wires).map (fun w => ⟨u, w⟩))

/-- The place in scan order where a scan starts (R46). -/
def Feed.startPoint (f : Feed) (order : List Nat) (wires : Nat) : Nat :=
  match f.cursor with
  | none => 0
  | some c =>
    match order.idxOf? c.unit with
    | none => 0
    | some i =>
      match f.order with
      | .sequential => i * wires + c.wire + 1
      | .stride => (i + 1) % order.length * wires

/-- The slots a scan visits, in the order of the visits, on a map of U units of W wires (R46). -/
def Feed.scan (f : Feed) (units wires : Nat) : List SlotId :=
  let order := f.unitOrder units
  let all := slotsOf order wires
  let k := f.startPoint order wires
  all.drop k ++ all.take k

/-- The distance of two positions. -/
def distance (x y : Nat) : Nat := (x - y) + (y - x)

/-- A position passes the guard test against a ticket list (R47). -/
def guardPasses (g x : Nat) (tickets : List Ticket) : Bool := tickets.all (fun t => decide (g ≤ distance x t.absX))

/-- A slot passes the guard test for a head (R47). -/
def State.guardFree (s : State) (m : StripMap) (h : Head) (i : SlotId) : Bool :=
  guardPasses s.issuer.guard ((s.boundProgram m).absX i.unit i.wire) (s.feed h.other).tickets

/-- The slot is OPEN in a unit not SKIPPED. -/
def StripMap.isOpen (m : StripMap) (i : SlotId) : Bool :=
  match m.units[i.unit]? with
  | some r => r.state != .skipped && ((r.slots[i.wire]?).map (·.phase)) == some .opened
  | none => false

/-- The slot is tier-ready (R28). -/
def StripMap.tierReady (m : StripMap) (prog : Program) (i : SlotId) : Bool :=
  match m.units[i.unit]? with
  | some r => r.tierReady (prog.wire i.wire).tier
  | none => false

/-- A slot of the scope is eligible for a head (R47). -/
def State.eligible (s : State) (m : StripMap) (h : Head) (i : SlotId) : Bool :=
  m.isOpen i && m.tierReady (s.boundProgram m) i && s.guardFree m h i

/-- The slots a scan for a head visits on the map (R46). -/
def State.scanFor (s : State) (m : StripMap) (h : Head) : List SlotId :=
  (s.feed h).scan m.units.length (s.boundProgram m).wires

/-- What the issue conditions and the scan decide for a head (R46 to R50): the slot to issue, or the reason of NONE. -/
def State.attempt (s : State) (h : Head) : Except NoneReason SlotId :=
  match s.map with
  | none => .error .noMap
  | some m =>
    if m.complete then .error .mapComplete
    else if s.held then .error .held
    else if s.tracker.clamp ≠ .none then .error .clamp
    else if (s.feed h).state ≠ .running then .error .feedOff
    else if (s.feed h).depth ≤ (s.feed h).tickets.length then .error .listFull
    else
      let scan := s.scanFor m h
      match scan.find? (s.eligible m h) with
      | some i => .ok i
      | none =>
        if scan.any (fun i => m.isOpen i && m.tierReady (s.boundProgram m) i && !s.guardFree m h i) then .error .guard
        else if scan.any (fun i => m.isOpen i && s.guardFree m h i && !m.tierReady (s.boundProgram m) i) then
          .error .tierWait
        else .error .noWire

/-! ### Issue -/

/-- The first number from `n` on, wrapping at the modulus, that is not held, if one of the next `k` is; k entries hold at
most k numbers. -/
def nextFree (modulus : Nat) (held : Nat → Bool) : Nat → Nat → Nat
  | 0, n => n
  | k + 1, n => if held n then nextFree modulus held k ((n + 1) % modulus) else n

/-- The next ticket number not held in the list (R40). -/
def Feed.pickNumber (f : Feed) : Nat := nextFree 256 (fun n => (f.find n).isSome) f.tickets.length f.nextNumber

/-- The ticket of a number for a slot (R40). -/
def Program.ticket (prog : Program) (number : Nat) (i : SlotId) : Ticket :=
  let e := prog.wire i.wire
  { number := number, unit := i.unit, wire := i.wire, tier := e.tier, x := e.x, absX := prog.absX i.unit i.wire,
    limitSet := e.limitSet, profile := e.profile }

/-- The ticket a head would be given for a slot now. -/
def State.ticketFor (s : State) (m : StripMap) (h : Head) (i : SlotId) : Ticket :=
  (s.boundProgram m).ticket (s.feed h).pickNumber i

/-- A feed with a ticket appended (R40, R41); a list that reaches the depth withdraws the fill request (R51), and one that
CLAIM fills beyond the depth does not (R56; (9)). -/
def Feed.append (f : Feed) (t : Ticket) : Feed :=
  { f with
    tickets := f.tickets ++ [t]
    nextNumber := (t.number + 1) % 256
    fill := f.fill && decide (f.tickets.length + 1 ≠ f.depth) }

/-- A ticket issued to a head by NEXT, a push pass or CLAIM: slot, ticket, list, last-served head (R48, R53, R56). -/
def State.grantTicket (s : State) (h : Head) (t : Ticket) : State :=
  let s1 := s.onMap (fun m => m.request t.unit t.wire (requestIssue h t.number))
  let s2 := s1.setFeed h ((s1.feed h).append t)
  { s2 with issuer := { s2.issuer with lastServed := h } }

/-- The feed counts an issue by NEXT or a push pass: the cursor, and the run count, which may end the run (R44, R48). -/
def Feed.countIssue (f : Feed) (i : SlotId) : Feed :=
  let f1 := { f with cursor := some i, count := f.count - 1 }
  if f.count = 1 then f1.turnOff else f1

/-- The ticket issued to a head by NEXT or a push pass (R48). -/
def State.issueTo (s : State) (h : Head) (t : Ticket) : State :=
  let s1 := s.grantTicket h t
  s1.setFeed h ((s1.feed h).countIssue ⟨t.unit, t.wire⟩)

/-- RUN_END posted to the head's port if this issue ended the run (R44). -/
def State.postRunEnd (s : State) (h : Head) (ended : Bool) : State :=
  if ended then s.post h.port (.runEnd (s.feed h).tickets.length) else s

/-! ### The arbiter -/

/-- A head has a request waiting: a NEXT, a CLAIM or a fill (R53). -/
def Feed.waits (f : Feed) : Bool := f.request.isSome || f.fill

/-- The head that is served next, if any request waits (R53). -/
def State.turn (s : State) : Option Head :=
  let h := s.issuer.lastServed.other
  if (s.feed h).waits then some h else if (s.feed h.other).waits then some h.other else none

/-- A response loaded at a serve, discarded if a later command byte has arrived (R188). -/
def State.loadResponse (s : State) (p : PortId) (r : CmdResult) (detail : Nat) (data : List Byte) : State :=
  if (s.port p).framing = .waiting then s.respond p r detail data else s

/-- A NEXT served (R49). -/
def serveNext (h : Head) (s : State) : State :=
  if (s.feed h).delivery = .push then s.loadResponse h.port .state SubReason.push.code []
  else
    match s.map, s.attempt h with
    | some m, .ok i =>
      let t := s.ticketFor m h i
      let ended := (s.feed h).count == 1
      ((s.issueTo h t).postRunEnd h ended).loadResponse h.port .ok (if ended then 1 else 0) t.bytes
    | _, .error why => s.loadResponse h.port .none why.code []
    | none, .ok _ => s

/-- The checks of CLAIM in their order (R55): the refusal with its detail, or the ticket to issue. -/
def State.claimCheck (s : State) (h : Head) (u w : Nat) : Except (CmdResult × Nat) Ticket :=
  if s.held then .error (.held, 1)
  else if s.tracker.clamp ≠ .none then .error (.state, SubReason.clamp.code)
  else if Config.listCapacity ≤ (s.feed h).tickets.length then .error (.full, 0)
  else
    match s.map with
    | none => .error (.range, 0)
    | some m =>
      match m.slot? u w with
      | none => .error (.range, 0)
      | some sl =>
        match sl.phase.owner? with
        | some (h', _) => if h' = h then .error (.duplicate, 0) else .error (.held, 2)
        | none =>
          if sl.phase ≠ .opened then .error (.state, SubReason.slot.code)
          else if !m.tierReady (s.boundProgram m) ⟨u, w⟩ then .error (.state, SubReason.tier.code)
          else if !s.guardFree m h ⟨u, w⟩ then .error (.state, SubReason.guard.code)
          else .ok (s.ticketFor m h ⟨u, w⟩)

/-- A CLAIM served (R55, R56). -/
def serveClaim (h : Head) (u w : Nat) (s : State) : State :=
  match s.claimCheck h u w with
  | .error (r, d) => s.loadResponse h.port r d []
  | .ok t => (s.grantTicket h t).loadResponse h.port .ok 0 t.bytes

/-- A fill request served (R52). -/
def serveFill (h : Head) (s : State) : State :=
  match s.map, s.attempt h with
  | some m, .ok i =>
    let t := s.ticketFor m h i
    let ended := (s.feed h).count == 1
    ((s.issueTo h t).post h.port (.ticket t.number t.unit t.wire t.tier t.limitSet t.profile)).postRunEnd h ended
  | _, _ => s.setFeed h { s.feed h with fill := false }

/-- The request of a head no longer waits. -/
def State.dropRequest (s : State) (h : Head) : State := s.setFeed h { s.feed h with request := none }

/-- A serve of the NEXT or CLAIM whose turn it is; where the turn is a fill's, or nothing waits, nothing changes (7). -/
def doArbiterServe (s : State) : State :=
  match s.turn with
  | none => s
  | some h =>
    match (s.feed h).request with
    | some .next => serveNext h (s.dropRequest h)
    | some (.claim u w) => serveClaim h u w (s.dropRequest h)
    | none => s

/-- ARBITER_SERVE. -/
def execArbiterServe (s : State) : Host.Outcome State Fault Refusal := .next (s.finish (doArbiterServe s))

/-- A serve of the fill request whose turn it is; where the turn is a NEXT's or CLAIM's, or nothing waits, nothing changes
(7). -/
def doFillServe (s : State) : State :=
  match s.turn with
  | none => s
  | some h =>
    match (s.feed h).request with
    | some _ => s
    | none => serveFill h s

/-- FILL_SERVE. -/
def execFillServe (s : State) : Host.Outcome State Fault Refusal := .next (s.finish (doFillServe s))

/-! ### NEXT and CLAIM at their taking -/

/-- A request that waits for the arbiter; the port is WAITING (R188). -/
def State.waitFor (s : State) (p : PortId) (h : Head) (r : Request) : State :=
  let s1 := s.setFeed h { s.feed h with request := some r }
  s1.setPort p { s1.port p with framing := .waiting }

/-- NEXT of a head at its taking (R49, R188; BUSY before STATE(PUSH): (8)). -/
def doNext (p : PortId) (h : Head) (s : State) : State :=
  if (s.feed h).request.isSome then s.refuse p .busy
  else if (s.feed h).delivery = .push then s.refuseState p .push
  else s.waitFor p h .next

/-- NEXT. -/
def execNext (p : PortId) (s : State) : Host.Outcome State Fault Refusal :=
  .next (s.finish (s.atomicRow p .next (paramBytes (.next p)) (withHead p (doNext p))))

/-- CLAIM of a head at its taking (R188). -/
def doClaim (p : PortId) (u w : Nat) (h : Head) (s : State) : State :=
  if (s.feed h).request.isSome then s.refuse p .busy else s.waitFor p h (.claim u w)

/-- CLAIM. -/
def execClaim (p : PortId) (unit : Byte) (wire : W16) (s : State) : Host.Outcome State Fault Refusal :=
  .next (s.finish (s.atomicRow p .claim (paramBytes (.claim p unit wire)) (withHead p (doClaim p unit.toNat wire.toNat))))

/-! ### CANCEL and FRESET -/

/-- The state code of the slot of a ticket: after the release of the ticket, 0 OPEN, 3 CLOSED or 4 SKIPPED (R57). -/
def State.slotCode (s : State) (t : Ticket) : Nat :=
  ((s.map.bind (fun m => m.slot? t.unit t.wire)).map (fun sl => sl.phase.code)).getD 0

/-- CANCEL of a head at its taking (R57); detail 0 of OK: (30). -/
def doCancel (p : PortId) (n : Nat) (h : Head) (s : State) : State :=
  match (s.feed h).find n with
  | none => s.refuse p .notFound
  | some t =>
    let s1 := s.cancelTicket h .cancelled t
    s1.trigger.respond p .ok 0 ([b8 t.unit] ++ be16 t.wire ++ [b8 (s1.slotCode t)])

/-- CANCEL. -/
def execCancel (p : PortId) (ticket : Byte) (s : State) : Host.Outcome State Fault Refusal :=
  .next (s.finish (s.atomicRow p .cancel (paramBytes (.cancel p ticket)) (withHead p (doCancel p ticket.toNat))))

/-- The four data bytes of FRESET: the tickets cancelled, and their slots OPEN, SKIPPED and CLOSED after it (R58). -/
def State.fresetData (s : State) (ts : List Ticket) : List Byte :=
  let count := fun c => ts.countP (fun t => s.slotCode t == c)
  [b8 ts.length, b8 (count 0), b8 (count 4), b8 (count 3)]

/-- FRESET of a head at its taking (R58); detail 0 of OK: (30). -/
def doFreset (p : PortId) (h : Head) (s : State) : State :=
  let ts := (s.feed h).tickets
  let s1 := ts.foldl (fun s t => s.cancelTicket h .freset t) s
  let s2 := s1.setFeed h { (s1.feed h).turnOff with cursor := none }
  (if ts.isEmpty then s2 else s2.trigger).respond p .ok 0 (s2.fresetData ts)

/-- FRESET. -/
def execFreset (p : PortId) (s : State) : Host.Outcome State Fault Refusal :=
  .next (s.finish (s.atomicRow p .freset (paramBytes (.freset p)) (withHead p (doFreset p))))

/-! ### GUARD -/

/-- GUARD at its taking (R59); detail 0 of OK: (30). -/
def doGuard (p : PortId) (g : Nat) (s : State) : State :=
  if (s.feed .a).tickets ≠ [] ∨ (s.feed .b).tickets ≠ [] then s.refuse p .busy
  else { s with issuer := { s.issuer with guard := g } }.trigger.respond p .ok 0 (be16 s.issuer.guard)

/-- GUARD. -/
def execGuard (p : PortId) (g : W16) (s : State) : Host.Outcome State Fault Refusal :=
  .next (s.finish (s.atomicRow p .guard (paramBytes (.guard p g)) (doGuard p g.toNat)))

/-! ### HSTAT -/

/-- The issue reason: 0 if a NEXT served now would issue a ticket, else the code of R50 (R60). -/
def State.issueReason (s : State) (h : Head) : Nat :=
  match s.attempt h with
  | .ok _ => 0
  | .error why => why.code

/-- The data of HSTAT (R60). -/
def State.hstatData (s : State) (h : Head) : List Byte :=
  let f := s.feed h
  [b8 f.state.code, b8 f.state.reasonCode] ++ be16 f.count ++ [b8 f.traversal.code, b8 f.fixedUnit, b8 f.order.code,
      b8 f.delivery.code, b8 f.depth, flag8 f.cursor.isSome, b8 ((f.cursor.map (·.unit)).getD 0)]
    ++ be16 ((f.cursor.map (·.wire)).getD 0)
    ++ [b8 f.nextNumber, flag8 f.latch, b8 (s.issueReason h), b8 f.tickets.length] ++ f.tickets.flatMap Ticket.bytes

/-- HSTAT of a head at its taking (R60); detail 0 of OK: (30). -/
def doHstat (p : PortId) (h : Head) (s : State) : State := s.respond p .ok 0 (s.hstatData h)

/-- HSTAT. -/
def execHstat (p : PortId) (s : State) : Host.Outcome State Fault Refusal :=
  .next (s.finish (s.atomicRow p .hstat (paramBytes (.hstat p)) (withHead p (doHstat p))))

/-! ### CLRSTOP -/

/-- CLRSTOP of a head at its taking (R89). -/
def doClrstop (p : PortId) (h : Head) (s : State) : State :=
  let data := [b8 (s.chan (zChan h)).run, b8 (s.chan (usChan h)).run]
  if 0 < (s.chan (zChan h)).run ∨ 0 < (s.chan (usChan h)).run then s.respond p .state SubReason.touch.code data
  else (s.setFeed h { s.feed h with latch := false }).respond p .ok (if (s.feed h).latch then 1 else 0) data

/-- CLRSTOP. -/
def execClrstop (p : PortId) (s : State) : Host.Outcome State Fault Refusal :=
  .next (s.finish (s.atomicRow p .clrstop (paramBytes (.clrstop p)) (withHead p (doClrstop p))))

end Sys2Proof.Machine
end

