-- ==== Sys2Proof/Machine/Links.lean ====
section
/-! DEFINITION. CHCFG, the Sensor Receivers and the path of a sample (chapters 4 and 5). -/

namespace Sys2Proof

/-- The ports of a link's notices, besides CC (R66). -/
def Link.port : Link → PortId
  | .slA => .ha | .slB => .hb | .slP => .mh

end Sys2Proof

namespace Sys2Proof.Machine

/-! ### CHCFG -/

/-- The channels that a link feeds (R66). -/
def linkChans : Link → List ChanId
  | .slA => [.az, .aus] | .slB => [.bz, .bus] | .slP => [.pf]

/-- At least one channel of the link is enabled (R76). -/
def State.linkEnabled (s : State) (l : Link) : Bool := (linkChans l).any (fun c => (s.chan c).enabled)

/-- A capture is open on the channel (R81): a window capture of its head, silenced or not, or the pull capture. -/
def State.captureOpen (s : State) (c : ChanId) : Bool :=
  match c.head? with
  | some h => (s.capture h).window.isSome
  | none => s.pull.capture.isSome

/-- The values CHCFG accepts on a channel (R81). -/
def chcfgOk (c : ChanId) (flags d sh metric t n timeout : Nat) : Bool :=
  decide (flags ≤ 1 ∧ 1 ≤ d ∧ d ≤ 32 ∧ sh ≤ 15 ∧ metric ≤ 15 ∧ 8 ≤ timeout ∧ timeout ≤ 1020
    ∧ (c ≠ .pf → 1 ≤ t ∧ t ≤ 8388607 ∧ 1 ≤ n))

/-- A timeout rounded up to a multiple of 4 (R81). -/
def roundTimeout (t : Nat) : Nat := (t + 3) / 4 * 4

/-- The channel that CHCFG leaves: the configuration replaced and the channel reset (R81, R82). P-F has no T and N. -/
def configured (c : ChanId) (flags d sh : Nat) (o : Int) (metric t n : Nat) : Channel :=
  { enabled := flags == 1, d := d, s := sh, o := o, metric := metric, t := if c = .pf then 0 else t,
    n := if c = .pf then 0 else n, sum := 0, count := 0, run := 0 }

/-- The receiver after CHCFG stored a timeout (R76): on a PRESENT link the timer starts or stops; on an ABSENT link it
stays stopped. -/
def Receiver.configure (r : Receiver) (timeout : Nat) (enabled : Bool) : Receiver :=
  { r with timeout := timeout, timer := if r.present && enabled then some timeout else none }

/-- CHCFG at its taking (R81, R82); detail 0 of OK: (30). -/
def doChcfg (p : PortId) (code flags d sh : Nat) (o : Int) (metric t n timeout : Nat) (s : State) : State :=
  match ChanId.ofCode? code with
  | none => s.refuse p .range
  | some c =>
    if !chcfgOk c flags d sh metric t n timeout then s.refuse p .range
    else if s.captureOpen c then s.refuse p .busy
    else
      let s1 := s.setChan c (configured c flags d sh o metric t n)
      let r := (s1.link c.link).configure (roundTimeout timeout) (s1.linkEnabled c.link)
      (s1.setLink c.link r).respond p .ok 0 (be16 (roundTimeout timeout) ++ [flag8 (!r.present)])

/-- CHCFG. -/
def execChcfg (p : PortId) (channel flags d sh : Byte) (o : W24) (metric : Byte) (t : W24) (n : Byte) (timeout : W16)
    (s : State) : Host.Outcome State Fault Refusal :=
  .next (s.finish (s.atomicRow p .chcfg (paramBytes (.chcfg p channel flags d sh o metric t n timeout))
    (doChcfg p channel.toNat flags.toNat d.toNat sh.toNat o.toInt metric.toNat t.toNat n.toNat timeout.toNat)))

/-! ### A sample on a channel -/

/-- The channel is a US channel: the channel kind of TOUCH (R88). -/
def ChanId.isUS : ChanId → Bool
  | .aus | .bus => true | _ => false

/-- The touch detector of a head channel (R87, R88), given the channel before the value. -/
def State.detectTouch (s : State) (c : ChanId) (h : Head) (before : Channel) (v : Int) : State :=
  let s1 := s.setChan c { s.chan c with run := before.runAfter v }
  if before.touches v && !(s.feed h).latch then
    let stopped := (s.feed h).state == .running
    let s2 := s1.setFeed h { (s1.feed h).stop .touch with latch := true }
    (s2.post h.port (.touch h c.isUS v stopped)).post .cc (.touch h c.isUS v stopped)
  else s1

/-- A decimated value into the window capture of a head, if one is open and not silenced (R85, R91, R113). -/
def BondCapture.takeValue (b : BondCapture) (us : Bool) (v : Int) : BondCapture :=
  { b with window := b.window.map (fun w => if w.live then (if us then w.takeUS v else w.takeZ v) else w) }

/-- A decimated value of a channel handed on (R85). -/
def State.deliverValue (s : State) (c : ChanId) (before : Channel) (v : Int) : State :=
  match c.head? with
  | some h =>
    let s1 := s.detectTouch c h before v
    s1.setCapture h ((s1.capture h).takeValue c.isUS v)
  | none => { s with pull := { s.pull with capture := s.pull.capture.map (fun k => k.takeValue v) } }

/-- A sample routed to a channel (R74, R83). -/
def State.sample (s : State) (c : ChanId) (x : Int) : State :=
  let ch := s.chan c
  if !ch.enabled then s
  else
    let r := ch.sample x
    let s1 := s.setChan c r.1
    match r.2 with
    | none => s1
    | some v => s1.deliverValue c ch v

/-! ### Words -/

/-- A notice to the notice ports of a link (R66). -/
def State.postLink (s : State) (l : Link) (n : Notice) : State := (s.post .cc n).post l.port n

/-- The selection that a selection code sets on a link (R70, R71). -/
def selectionOf (l : Link) (code : Nat) : Selection :=
  match l with
  | .slP => if code = 3 then .force else .none
  | _ => if code = 1 then .z else if code = 2 then .us else .none

/-- The packing that a packing code sets (R70). -/
def packingOf (code : Nat) : Packing := if code = 1 then .pair else if code = 2 then .split else .single

/-- The receiver after an address word's payload is interpreted (R70). -/
def Receiver.address (r : Receiver) (l : Link) (payload : W32) : Receiver :=
  { r with selection := selectionOf l (payload.toNat % 256), packing := packingOf (payload.toNat / 256 % 4) }

/-- The channel that a selection names on a link (R71, R72). -/
def routeChan (l : Link) : Selection → Option ChanId
  | .none => none
  | .z => match l with | .slA => some .az | .slB => some .bz | .slP => none
  | .us => match l with | .slA => some .aus | .slB => some .bus | .slP => none
  | .force => match l with | .slP => some .pf | _ => none

/-- The samples of a data word in the order in which they reach their channels (R72, R73; the order of the two samples of
SPLIT: (21)). -/
def routed (l : Link) (sel : Selection) (pk : Packing) (low high : Int) : List (ChanId × Int) :=
  match pk with
  | .split =>
    match l with
    | .slA => [(.az, low), (.aus, high)]
    | .slB => [(.bz, low), (.bus, high)]
    | .slP => [(.pf, low)]
  | .single => match routeChan l sel with | some c => [(c, low)] | none => []
  | .pair => match routeChan l sel with | some c => [(c, low), (c, high)] | none => []

/-- The receiver at the first two steps of a good word (R68, R76, R78): a running timer restarts, and an ABSENT link
becomes PRESENT, its timer starting if one of its channels is enabled. -/
def Receiver.goodWord (r : Receiver) (enabled : Bool) : Receiver :=
  if r.present then { r with timer := r.timer.map (fun _ => r.timeout) }
  else { r with present := true, timer := if enabled then some r.timeout else none }

/-- A good word on a link (R68): `interpret` is what an address word does to the receiver; LINK_BACK carries the selection
and packing after it (R78). -/
def State.goodWord (s : State) (l : Link) (interpret : Receiver → Receiver) : State :=
  let r := s.link l
  let r' := interpret (r.goodWord (s.linkEnabled l))
  let s1 := s.setLink l r'
  if r.present then s1 else s1.postLink l (.linkBack l r'.selection r'.packing)

/-- ADDRESS_WORD; a receiver that waits for its line to rest takes no word (20). -/
def execAddressWord (l : Link) (payload : W32) (s : State) : Host.Outcome State Fault Refusal :=
  .next (s.finish (if (s.link l).atRest then s.goodWord l (fun r => r.address l payload) else s))

/-- A data word on a link (R68, R72 to R74). -/
def doDataWord (l : Link) (payload : W32) (s : State) : State :=
  let r := s.link l
  (routed l r.selection r.packing (signed16 (payload.toNat % 65536)) (signed16 (payload.toNat / 65536))).foldl
    (fun s x => s.sample x.1 x.2) (s.goodWord l id)

/-- DATA_WORD; a receiver that waits for its line to rest takes no word (20). -/
def execDataWord (l : Link) (payload : W32) (s : State) : Host.Outcome State Fault Refusal :=
  .next (s.finish (if (s.link l).atRest then doDataWord l payload s else s))

/-! ### Marks, absence, rest -/

/-- Marks on the captures open on a link (R75, R113). -/
def State.markLink (s : State) (l : Link) (window : Window → Window) (pull : PullCapture → PullCapture) : State :=
  let onHead := fun (h : Head) => s.setCapture h
    { s.capture h with window := (s.capture h).window.map (fun w => if w.live then window w else w) }
  match l with
  | .slA => onHead .a
  | .slB => onHead .b
  | .slP => { s with pull := { s.pull with capture := s.pull.capture.map pull } }

/-- A framing error on a link (R69). -/
def doFramingError (l : Link) (s : State) : State :=
  let s1 := s.markLink l Window.markFraming (fun k => { k with framing := true })
  s1.setLink l { s1.link l with atRest := false }

/-- FRAMING_ERROR; a receiver that waits for its line to rest takes no word (20). -/
def execFramingError (l : Link) (s : State) : Host.Outcome State Fault Refusal :=
  .next (s.finish (if (s.link l).atRest then doFramingError l s else s))

/-- An open window capture of the link's head, not silenced: the window flag of LINK_LOST (R77). -/
def State.windowFlag (s : State) (l : Link) : Bool :=
  match l with
  | .slA => ((s.capture .a).window.map Window.live).getD false
  | .slB => ((s.capture .b).window.map Window.live).getD false
  | .slP => false

/-- The pull flag of LINK_LOST (R77). -/
def State.pullFlag (s : State) (l : Link) : Bool := l == .slP && s.pull.capture.isSome

/-- An expiry of a running absence timer (R77). -/
def doAbsenceExpiry (l : Link) (s : State) : State :=
  let s1 := s.markLink l Window.markAbsence (fun k => { k with absence := true })
  (s1.setLink l { s1.link l with present := false, timer := none }).postLink l
    (.linkLost l (s.windowFlag l) (s.pullFlag l))

/-- ABSENCE_EXPIRY; a stopped timer does not expire (R76). -/
def execAbsenceExpiry (l : Link) (s : State) : Host.Outcome State Fault Refusal :=
  .next (s.finish (if (s.link l).timer.isSome then doAbsenceExpiry l s else s))

/-- LINE_RETURNS_TO_REST (R67). -/
def execLineReturnsToRest (l : Link) (s : State) : Host.Outcome State Fault Refusal :=
  .next (s.finish (s.setLink l { s.link l with atRest := true }))

/-! ### Bits of a word (R67 to R69; the rows stand for whole words: (6)) -/

/-- The resting level of a link's line (section 11.8). -/
def linkRest : Bool := true

/-- The word of thirty-five bits in the order of arrival (section 11.8): start bit, address flag, the low half of the payload
and the high half, each most significant bit first, stop bit. -/
def LinkWord.ofBits (bits : List Bool) : LinkWord :=
  { isAddress := bits.getD 1 false
    payload := BitVec.ofNat 32 (ofMsbFirst ((bits.drop 2).take 16) + 65536 * ofMsbFirst ((bits.drop 18).take 16)) }

/-- A good word taken from the holding word (R68). -/
def State.takeWord (s : State) (l : Link) (w : LinkWord) : State :=
  if w.isAddress then s.goodWord l (fun r => r.address l w.payload) else doDataWord l w.payload s

/-- A complete word, its assembling word empty again (R67 to R69): good with its stop bit at rest, else a framing error. -/
def State.completeWord (s : State) (l : Link) (bits : List Bool) : State :=
  if bits.getD 34 linkRest = linkRest then s.takeWord l (.ofBits bits) else doFramingError l s

/-- A bit that a receiver sees on its line (R67): rest ends its wait for rest; at rest a bit of the other level starts a word;
each further bit joins the assembling word, which completes with its thirty-fifth. -/
def State.linkBit (s : State) (l : Link) (level : Bool) : State :=
  let r := s.link l
  let bits := r.assembling ++ [level]
  if !r.atRest then (if level = linkRest then s.setLink l { r with atRest := true } else s)
  else if r.assembling = [] ∧ level = linkRest then s
  else if bits.length < 35 then s.setLink l { r with assembling := bits }
  else s.finish ((s.setLink l { r with assembling := [] }).completeWord l bits)

end Sys2Proof.Machine
end

