-- ==== Sys2Proof/Machine/Bonding.lean ====
section
/-! DEFINITION. Bond Capture (chapter 6): ARM, DISARM and the window of a head. -/

namespace Sys2Proof.Machine

/-! ### ARM and DISARM -/

/-- The phase of a ticket by the state of its slot: STITCH if it is FIRST, else BALL (R101). -/
def State.phaseOf (s : State) (t : Ticket) : Phase :=
  match s.map.bind (fun m => m.slot? t.unit t.wire) with
  | some ⟨.first _ _ _, _⟩ => .stitch
  | _ => .ball

/-- The number of an armed ticket, 0 if none. -/
def armedNumber (a : Option Armed) : Nat := (a.map (fun a => a.ticket.number)).getD 0

/-- ARM of a head at its taking (R102; its order decides for a ticket not in the list while a window capture is present:
(36)). -/
def doArm (p : PortId) (n : Nat) (h : Head) (s : State) : State :=
  match (s.feed h).find n with
  | none => s.refuse p .notFound
  | some t =>
    if (s.capture h).window.isSome then s.refuse p .busy
    else if s.phaseOf t = .ball ∧ s.tracker.clamp ≠ .none then s.refuseState p .clamp
    else
      let before := (s.capture h).armed
      (s.setCapture h { s.capture h with armed := some ⟨t, s.phaseOf t⟩ }).respond p .ok (s.phaseOf t).code
        [flag8 before.isSome, b8 (armedNumber before), b8 t.number]

/-- ARM. -/
def execArm (p : PortId) (ticket : Byte) (s : State) : Host.Outcome State Fault Refusal :=
  .next (s.finish (s.atomicRow p .arm (paramBytes (.arm p ticket)) (withHead p (doArm p ticket.toNat))))

/-- DISARM of a head at its taking (R103); detail 0 of OK: (30). -/
def doDisarm (p : PortId) (h : Head) (s : State) : State :=
  if (s.capture h).window.isSome then s.refuse p .busy
  else
    let before := (s.capture h).armed
    (s.setCapture h { s.capture h with armed := none }).respond p .ok 0
      [flag8 before.isSome, b8 (armedNumber before), b8 ((before.map (fun a => a.phase.code)).getD 0)]

/-- DISARM. -/
def execDisarm (p : PortId) (s : State) : Host.Outcome State Fault Refusal :=
  .next (s.finish (s.atomicRow p .disarm (paramBytes (.disarm p)) (withHead p (doDisarm p))))

/-! ### The rise of WIN -/

/-- The armed ticket is a ball and the clamp state is not NONE (R104, case 2). -/
def Armed.barred (a : Armed) (clamp : Clamp) : Bool := a.phase == .ball && clamp != .none

/-- The binding of a window at its opening (R104, R111). -/
def openBinding (armed : Option Armed) (clamp : Clamp) : Binding :=
  match armed with
  | none => .stray .notArmed 0 .ball
  | some a => if a.barred clamp then .stray .clamp a.ticket.number a.phase else .bound a.ticket a.phase

/-- A window opens (R86, R104). -/
def State.openWindow (s : State) (h : Head) : State :=
  let c := s.capture h
  let w := Window.opening (openBinding c.armed s.tracker.clamp) (s.chan (zChan h)).enabled (s.chan (usChan h)).enabled
    (!(s.link (headLink h)).present)
  (s.setCapture h
    { c with
      win := true
      window := some w
      armed := c.armed.filter (fun a => !a.barred s.tracker.clamp) }).emptyHead h

/-- WINDOW_OPEN; a line that is high already does not rise (10). -/
def execWindowOpen (h : Head) (s : State) : Host.Outcome State Fault Refusal :=
  .next (s.finish (if (s.capture h).win then s else s.openWindow h))

/-! ### The fall of WIN -/

/-- The head that bonds a wire recorded in the selection list (R143). -/
def PullStore.bonded (p : PullStore) (t : Ticket) (h : Head) : PullStore :=
  { p with selection := p.selection.map (fun e => if e.unit = t.unit ∧ e.wire = t.wire then { e with head := some h } else e) }

/-- The commit of a result into the map and the list (R107, R108). -/
def State.commit (s : State) (h : Head) (t : Ticket) (ph : Phase) (r : BondResult) : State :=
  match ph with
  | .ball => s.onMap (fun m => m.request t.unit t.wire (requestBall h t.number r))
  | .stitch =>
    let s1 := s.onMap (fun m => m.request t.unit t.wire (requestStitch h t.number t.tier r))
    let s2 := s1.setFeed h ((s1.feed h).remove t)
    { s2 with pull := s2.pull.bonded t h }

/-- The stop of a RUNNING feed by a FAIL verdict, with VERDICT and FEED_STOP (R109, R110). -/
def State.reportVerdict (s : State) (h : Head) (t : Ticket) (ph : Phase) (r : BondResult) (longZ longUS : Bool) : State :=
  if r.verdict = .fail ∧ (s.feed h).state = .running then
    ((s.setFeed h ((s.feed h).stop .fail)).post h.port (.verdict t.number ph r longZ longUS true)).post h.port
      (.feedStop t.number ph r.cause)
  else s.post h.port (.verdict t.number ph r longZ longUS false)

/-- The close of a BOUND capture (R106 to R110): commit, last result, notices, completion, clamp, and the trigger of a
stitch close. -/
def State.closeBound (s : State) (h : Head) (w : Window) (t : Ticket) (ph : Phase) : State :=
  let r := w.judge (s.limitSet t.limitSet) ph (s.chan (zChan h)).metric (s.chan (usChan h)).metric
  let s1 := s.commit h t ph r
  let s2 := s1.setCapture h { s1.capture h with last := some ⟨t.number, ph, r.verdict⟩ }
  let s3 := (s2.reportVerdict h t ph r w.z.long w.us.long).checkComplete.checkClamp
  match ph with
  | .ball => s3
  | .stitch => s3.trigger

/-- WIN falls. A window that is open closes (R101, R106): the partial groups are discarded, the armed ticket is cleared, the
capture ceases to exist, and it is dealt with by its binding. A fall with no window capture closes nothing and has no
effect (R105). -/
def State.closeWindow (s : State) (h : Head) : State :=
  let c := s.capture h
  match c.window with
  | none => s.setCapture h { c with win := false }
  | some w =>
    let s2 := (s.setCapture h { c with win := false, window := none, armed := none }).emptyHead h
    match w.binding with
    | .bound t ph => s2.closeBound h w t ph
    | .stray why n ph => s2.post h.port (.stray why n ph w.z.n)
    | .silenced => s2

/-- WINDOW_CLOSE; a line that is low already does not fall (10). -/
def execWindowClose (h : Head) (s : State) : Host.Outcome State Fault Refusal :=
  .next (s.finish (if (s.capture h).win then s.closeWindow h else s))

end Sys2Proof.Machine
end

