-- ==== Sys2Proof/Machine/Pull.lean ====
section
/-! DEFINITION. The Pull Record Store (chapter 8): the sampling plan, the creation of records, pull captures and PTAKE. -/

namespace Sys2Proof.Machine

/-! ### SPLAN -/

/-- No unit number appears twice. -/
def distinct : List Nat → Bool
  | [] => true
  | x :: xs => !xs.contains x && distinct xs

/-- SPLAN at its taking (R140); detail 0 of OK: (30). -/
def doSplan (p : PortId) (period limit count : Nat) (units : List Byte) (s : State) : State :=
  if limit = 0 ∨ 32 < limit ∨ 8 < count then s.refuse p .range
  else
    let us := (units.take count).map (·.toNat)
    if us.any (fun u => decide (63 < u)) then s.refuse p .range
    else if !distinct us then s.refuse p .duplicate
    else
      { s with pull := { s.pull with period := period, limit := limit, units := us, counter := 0 } }.respond p .ok 0
        [b8 s.pull.period, b8 s.pull.counter]

/-- SPLAN. -/
def execSplan (p : PortId) (period limit count : Byte) (units : Vector Byte 8) (s : State) :
    Host.Outcome State Fault Refusal :=
  .next (s.finish (s.atomicRow p .splan (paramBytes (.splan p period limit count units))
    (doSplan p period.toNat limit.toNat count.toNat units.toList)))

/-! ### Records -/

/-- The record of an id in the store. -/
def PullStore.find (p : PullStore) (id : Nat) : Option PullRecord := p.records.find? (fun r => r.id == id)

/-- The state of the record of an id replaced. -/
def PullStore.setState (p : PullStore) (id : Nat) (st : RecordState) : PullStore :=
  { p with records := p.records.map (fun r => if r.id = id then { r with state := st } else r) }

/-- The next record id not held in the store (R147). -/
def PullStore.pickId (p : PullStore) : Nat := nextFree 65536 (fun n => (p.find n).isSome) p.records.length p.nextId

/-- A verdict with which a record is made (R147). -/
def pullable (v : Verdict) : Bool := v == .good || v == .marginal

/-- The ball and stitch results of a slot of the map for which a record is made: its unit is not SKIPPED and it closed GOOD
or MARGINAL (R147). -/
def StripMap.pullResults (m : StripMap) (e : SelEntry) : Option (BondResult × BondResult) :=
  match m.units[e.unit]? with
  | none => none
  | some r =>
    if r.state = .skipped then none
    else
      match r.slots[e.wire]? with
      | some ⟨.closed ball (some stitch) v _, _⟩ => if pullable v then some (ball, stitch) else none
      | _ => none

/-- The walk of the selection list (R147): the store, the records created and the entries short. -/
structure Walk where
  store : PullStore
  created : Nat
  short : Nat
deriving DecidableEq, Repr

/-- A record created and appended (R147). -/
def PullStore.create (p : PullStore) (m : StripMap) (prog : Program) (e : SelEntry) (ball stitch : BondResult) : PullStore :=
  let id := p.pickId
  { p with
    nextId := (id + 1) % 65536
    records := p.records ++ [
      { id := id, serial := m.serial, unit := e.unit, wire := e.wire, head := e.head.getD .a, ballVerdict := ball.verdict,
        ballDEF := ball.DEF, stitchVerdict := stitch.verdict, stitchDEF := stitch.DEF,
        limitSet := (prog.wire e.wire).limitSet, state := .pending }] }

/-- One entry of the walk (R147). -/
def Walk.visit (m : StripMap) (prog : Program) (k : Walk) (e : SelEntry) : Walk :=
  match m.pullResults e with
  | none => k
  | some (ball, stitch) =>
    if k.store.records.length < Config.storeCapacity then
      { k with store := k.store.create m prog e ball stitch, created := k.created + 1 }
    else { k with short := k.short + 1 }

/-- The records of a released strip (R147). -/
def PullStore.walk (p : PullStore) (m : StripMap) (prog : Program) : Walk :=
  p.selection.foldl (Walk.visit m prog) { store := p, created := 0, short := 0 }

/-! ### The pull status of the strip at PULL (R130) -/

/-- One record of the strip finished, with `passed` and `failed` to add. -/
def PullStatus.finish (k : PullStatus) (passed failed : Nat) : PullStatus :=
  { state := if k.outstanding = 1 then PullState.closed else k.state
    outstanding := k.outstanding - 1
    passed := k.passed + passed
    failed := k.failed + failed }

/-- The pull status of the strip at PULL after one of its records finished. -/
def State.finishRecord (s : State) (passed failed : Nat) : State :=
  { s with tracker := { s.tracker with
      pull := s.tracker.pull.map (fun r => { r with pull := r.pull.map (fun k => k.finish passed failed) }) } }

/-- The outstanding count of a strip record, 0 without a pull status (R124). -/
def StripRecord.outstanding (r : StripRecord) : Nat := (r.pull.map (·.outstanding)).getD 0

/-- The outstanding count of the strip at PULL. -/
def State.outstanding (s : State) : Nat := (s.tracker.pull.map StripRecord.outstanding).getD 0

/-! ### PSTART -/

/-- The oldest-pending data of a refused PSTART (R148). -/
def PullStore.oldestPending (p : PullStore) : List Byte :=
  match p.records.find? (fun r => r.state == .pending) with
  | some r => be16 r.id ++ [b8 r.unit] ++ be16 r.wire ++ [b8 (p.records.countP (fun r => r.state == .pending))]
  | none => List.replicate 6 0

/-- PSTART at its taking (R148; its order decides for a record that is not PENDING while another is TESTING: (11)); detail 0
of OK: (30). -/
def doPstart (p : PortId) (id : Nat) (s : State) : State :=
  match s.pull.find id with
  | none => s.respond p .notFound 0 s.pull.oldestPending
  | some r =>
    if r.state ≠ .pending then s.respond p .state SubReason.record.code s.pull.oldestPending
    else
      match s.pull.records.find? (fun q => q.state == .testing) with
      | some q => s.respond p .busy 0 (be16 q.id)
      | none =>
        if !(s.chan .pf).enabled then s.refuseState p .disabled
        else
          let absent := !(s.link .slP).present
          let s1 : State := { s with pull := { s.pull.setState id .testing with capture := some (.opening absent) } }
          (s1.emptyChan .pf).respond p .ok 0
            (be32 r.serial.toNat ++ [b8 r.unit] ++ be16 r.wire ++ [b8 r.limitSet, flag8 absent])

/-- PSTART. -/
def execPstart (p : PortId) (id : W16) (s : State) : Host.Outcome State Fault Refusal :=
  .next (s.finish (s.atomicRow p .pstart (paramBytes (.pstart p id)) (doPstart p id.toNat)))

/-! ### PEND -/

/-- A result that fails a pull (R151). -/
def PullResult.failed (r : PullResult) : Bool := r == .failLow || r == .failMode

/-- The flags byte of PEND (R150): LONG in bit 0, absence in bit 1, framing error in bit 2, the order of their naming
(33); the other bits are 0 (37). -/
def PullCapture.flags (k : PullCapture) : Byte :=
  b8 ((if k.long then 1 else 0) + (if k.absence then 2 else 0) + (if k.framing then 4 else 0))

/-- A pull judged (R150, R151): the record DONE, the capture gone, the pull status, PULL_RESULT, and PULL_FAIL for a failing
pull. -/
def State.endPull (s : State) (r : PullRecord) (mode PF : Nat) (result : PullResult) : State :=
  let s1 : State := { s with pull := { s.pull.setState r.id (.done PF mode result) with capture := none } }
  let s2 := (s1.emptyChan .pf).finishRecord (if result = .pass then 1 else 0) (if result.failed then 1 else 0)
  let n := Notice.pullResult r.id result mode PF s2.outstanding
  let s3 := (s2.post .cc n).post .mh n
  if result.failed then s3.addReason 4 .pullFail else s3

/-- PEND at its taking (R150, R151). -/
def doPend (p : PortId) (id mode : Nat) (s : State) : State :=
  match s.pull.find id with
  | none => s.refuse p .notFound
  | some r =>
    if r.state ≠ .testing then s.refuseState p .record
    else if mode = 0 ∨ 6 < mode then s.refuse p .range
    else
      let k := s.pull.capture.getD (.opening false)
      let PF := k.PF (s.chan .pf).metric
      let result := judgePull k (s.limitSet r.limitSet) PF mode
      let s1 := s.endPull r mode PF result
      s1.respond p .ok result.code (be16 PF ++ be16 k.n ++ [k.flags, b8 s1.outstanding])

/-- PEND. -/
def execPend (p : PortId) (id : W16) (mode : Byte) (s : State) : Host.Outcome State Fault Refusal :=
  .next (s.finish (s.atomicRow p .pend (paramBytes (.pend p id mode)) (doPend p id.toNat mode.toNat)))

/-! ### PVOID -/

/-- PVOID at its taking (R152). -/
def doPvoid (p : PortId) (id : Nat) (s : State) : State :=
  match s.pull.find id with
  | none => s.refuse p .notFound
  | some r =>
    if r.open? = false then s.refuseState p .record
    else
      let testing := r.state == .testing
      let s1 : State := { s with pull := { s.pull.setState id .void with
        capture := if testing then none else s.pull.capture } }
      let s2 := (if testing then s1.emptyChan .pf else s1).finishRecord 0 0
      s2.respond p .ok (if testing then 1 else 0) ([b8 r.unit] ++ be16 r.wire ++ [b8 s2.outstanding])

/-- PVOID. -/
def execPvoid (p : PortId) (id : W16) (s : State) : Host.Outcome State Fault Refusal :=
  .next (s.finish (s.atomicRow p .pvoid (paramBytes (.pvoid p id)) (doPvoid p id.toNat)))

/-! ### PTAKE -/

/-- The export code of a record's state: 3 DONE, 4 VOID (section 11.8). No other state is exported. -/
def RecordState.code : RecordState → Nat
  | .pending => 1 | .testing => 2 | .done .. => 3 | .void => 4

/-- PF, break mode and result code of a record (R153). PF and result of a VOID record, which has neither, are exported as 0:
(34). -/
def RecordState.done? : RecordState → Nat × Nat × Nat
  | .done pf mode result => (pf, mode, result.code)
  | _ => (0, 0, 0)

/-- One record as sixteen bytes (section 11.8; bit 7 of byte 9: (37)). -/
def PullRecord.bytes (r : PullRecord) : List Byte :=
  let d := r.state.done?
  be16 r.id ++ be32 r.serial.toNat ++ be16 (r.unit * 1024 + r.wire)
    ++ [b8 (r.state.code + 8 * r.head.code + 16 * r.limitSet),
        b8 (r.ballVerdict.code + 2 * r.stitchVerdict.code + 4 * d.2.2 + 16 * d.2.1)]
    ++ be16 r.ballDEF ++ be16 r.stitchDEF ++ be16 d.1

/-- The k oldest finished records (R153). -/
def PullStore.finished (p : PullStore) (k : Nat) : List PullRecord := (p.records.filter (fun r => !r.open?)).take k

/-- The store without some of its records; those behind close up (R153). -/
def PullStore.without (p : PullStore) (rs : List PullRecord) : PullStore :=
  { p with records := rs.foldl (fun l r => l.erase r) p.records }

/-- PTAKE at its taking (R153). -/
def doPtake (p : PortId) (k : Nat) (s : State) : State :=
  if k = 0 ∨ 16 < k then s.refuse p .range
  else
    let rs := s.pull.finished k
    { s with pull := s.pull.without rs }.respond p .ok rs.length
      (rs.flatMap PullRecord.bytes ++ List.replicate (16 * (k - rs.length)) 0)

/-- PTAKE. -/
def execPtake (p : PortId) (k : Byte) (s : State) : Host.Outcome State Fault Refusal :=
  .next (s.finish (s.atomicRow p .ptake (paramBytes (.ptake p k)) (doPtake p k.toNat)))

end Sys2Proof.Machine
end

