-- ==== Sys2Proof/Machine/Tracker.lean ====
section
/-! DEFINITION. The Position Tracker (chapter 7): magazine tables, strip positions, zone entry and release, stowing and the
clamp. -/

namespace Sys2Proof.Machine

/-! ### MAGLD and MAGUL -/

/-- The table of a side is present; side 0 is input, 1 output. -/
def Tracker.present (t : Tracker) (side : Nat) : Bool := if side = 0 then t.input.isSome else t.output.isSome

/-- The slot flags that MAGLD accepts for a count (R121). -/
def occupancyOk (count : Nat) (occupied : List Byte) : Bool :=
  decide (1 ≤ count ∧ count ≤ 50) && (List.range 56).all (fun i => !flagOf occupied i || decide (i < count))

/-- The tracker with a table loaded (R121). -/
def Tracker.load (t : Tracker) (side : Nat) (id : W16) (count : Nat) (occupied : List Byte) : Tracker :=
  if side = 0 then
    { t with input := some ⟨id, (List.range count).map (fun i => if flagOf occupied i then .full else .empty)⟩ }
  else { t with output := some ⟨id, (List.range count).map (fun i => if flagOf occupied i then .blocked else .empty)⟩ }

/-- MAGLD at its taking (R121); detail 0 of OK: (30). -/
def doMagld (p : PortId) (side : Nat) (id : W16) (count : Nat) (occupied : List Byte) (s : State) : State :=
  if 1 < side then s.refuse p .range
  else if s.tracker.present side then s.refuseState p .magPresent
  else if !occupancyOk count occupied then s.refuse p .range
  else
    let k := (List.range count).countP (flagOf occupied)
    { s with tracker := s.tracker.load side id count occupied }.respond p .ok 0 [b8 k, b8 (count - k)]

/-- MAGLD. -/
def execMagld (p : PortId) (side : Byte) (id : W16) (count : Byte) (occupied : Vector Byte 7) (s : State) :
    Host.Outcome State Fault Refusal :=
  .next (s.finish (s.atomicRow p .magld (paramBytes (.magld p side id count occupied))
    (doMagld p side.toNat id count.toNat occupied.toList)))

/-- MAGUL at its taking (R122); detail 0 of OK: (30). -/
def doMagul (p : PortId) (side : Nat) (s : State) : State :=
  if 1 < side then s.refuse p .range
  else if side = 0 then
    match s.tracker.input with
    | none => s.refuseState p .noMag
    | some t =>
      { s with tracker := { s.tracker with input := none } }.respond p .ok 0 (be16 t.id.toNat ++ [b8 t.full, b8 t.fed])
  else
    match s.tracker.output with
    | none => s.refuseState p .noMag
    | some t =>
      ({ s with tracker := { s.tracker with output := none } }.post .cc (.magOut t.id t.stowed)).respond p .ok 0
        (be16 t.id.toNat ++ [b8 t.stowed, b8 t.blocked, b8 t.free])

/-- MAGUL. -/
def execMagul (p : PortId) (side : Byte) (s : State) : Host.Outcome State Fault Refusal :=
  .next (s.finish (s.atomicRow p .magul (paramBytes (.magul p side)) (doMagul p side.toNat)))

/-! ### MGRD -/

/-- The entry of an input slot (R123). -/
def InSlot.bytes (i : InSlot) : List Byte :=
  (match i with | .empty => 0 | .full => 1 | .fed => 2) :: List.replicate 9 0

/-- The entry of an output slot (R123). -/
def OutSlot.bytes : OutSlot → List Byte
  | .empty => List.replicate 10 0
  | .blocked => 1 :: List.replicate 9 0
  | .stowed c => [2] ++ be32 c.serial.toNat ++ [b8 c.good, b8 c.suspect, b8 c.reject, b8 c.skipped, b8 c.pull.code]

/-- The entry of a strip position (R124; the upper six bits of its flags byte: (37)). -/
def positionBytes (o : Option StripRecord) : List Byte :=
  match o with
  | none => List.replicate 10 0
  | some r =>
    let slot := match r.binding with
      | .bound i => i
      | _ => 255
    [1] ++ be32 r.serial.toNat ++ [b8 r.source, b8 slot,
      b8 ((if r.binding = .waiting then 1 else 0) + (if r.sampled = some true then 2 else 0)),
      b8 ((r.pull.map (fun k => k.state.code)).getD 0), b8 r.outstanding]

/-- The data of MGRD (R123, R124). -/
def Tracker.readout (t : Tracker) (side : Nat) : List Byte :=
  if side = 0 then
    match t.input with
    | none => [0, 0, 0, 0]
    | some i => [1] ++ be16 i.id.toNat ++ [b8 i.slots.length] ++ i.slots.flatMap InSlot.bytes
  else if side = 1 then
    match t.output with
    | none => [0, 0, 0, 0]
    | some o => [1] ++ be16 o.id.toNat ++ [b8 o.slots.length] ++ o.slots.flatMap OutSlot.bytes
  else positionBytes t.feed ++ positionBytes t.zone ++ positionBytes t.pull

/-- MGRD at its taking (R123, R124); detail 0 of OK: (30). -/
def doMgrd (p : PortId) (side : Nat) (s : State) : State :=
  if 2 < side then s.refuse p .range else s.respond p .ok 0 (s.tracker.readout side)

/-- MGRD. -/
def execMgrd (p : PortId) (side : Byte) (s : State) : Host.Outcome State Fault Refusal :=
  .next (s.finish (s.atomicRow p .mgrd (paramBytes (.mgrd p side)) (doMgrd p side.toNat)))

/-! ### FEED -/

/-- The serials of R118: the strips in flight and the STOWED slots of the present output table. -/
def Tracker.serials (t : Tracker) : List W32 :=
  (t.feed.toList ++ t.zone.toList ++ t.pull.toList).map (·.serial)
    ++ (((t.output.map (·.slots)).getD []).filterMap (fun o => match o with | .stowed c => some c.serial | _ => none))

/-- A strip record as FEED creates it (R125). -/
def StripRecord.fed (serial : W32) (source : Nat) : StripRecord :=
  { serial := serial, source := source, binding := .absent, skipMask := none, sampled := none, outcomes := none, pull := none }

/-- FEED at its taking (R125); detail 0 of OK: (30). -/
def doFeed (p : PortId) (slot : Nat) (serial : W32) (s : State) : State :=
  match s.tracker.input with
  | none => s.refuseState p .noMag
  | some t =>
    match t.slots[slot]? with
    | none => s.refuse p .range
    | some st =>
      if st ≠ .full then s.refuseState p .slot
      else if s.tracker.feed.isSome then s.refuse p .busy
      else if s.tracker.serials.contains serial then s.refuse p .duplicate
      else
        let t' := { t with slots := t.slots.set slot .fed }
        { s with tracker := { s.tracker with input := some t', feed := some (.fed serial slot) } }.respond p .ok 0 [b8 t'.full]

/-- FEED. -/
def execFeed (p : PortId) (slot : Byte) (serial : W32) (s : State) : Host.Outcome State Fault Refusal :=
  .next (s.finish (s.atomicRow p .feed (paramBytes (.feed p slot serial)) (doFeed p slot.toNat serial)))

/-! ### ZONE -/

/-- The slot and program that a strip entering the zone is bound to (R126): the selected one, which holds a program. -/
def State.selectedProgram (s : State) : Option (Nat × Program) :=
  s.programs.selection.bind (fun i => (s.program? i).map (fun q => (i, q)))

/-- The data of ZONE for a strip that was bound (R126). -/
def State.zoneData (s : State) (slot : Nat) : List Byte :=
  let m := s.map
  [b8 slot, b8 ((m.map (fun m => m.units.length)).getD 0), b8 ((m.map StripMap.skippedUnits).getD 0),
    b8 ((if (s.tracker.zone.bind (·.sampled)) = some true then 1 else 0)
      + (if (m.map (·.complete)) = some true then 2 else 0))]

/-- ZONE at its taking (R126, R127). -/
def doZone (p : PortId) (mask : Vector Byte 8) (s : State) : State :=
  match s.tracker.feed with
  | none => s.refuseState p .noStrip
  | some r =>
    if s.tracker.zone.isSome then s.refuse p .busy
    else
      let strip := { r with skipMask := some mask, binding := .waiting }
      let s1 : State := { s with tracker := { s.tracker with feed := none, zone := some strip } }
      match s.selectedProgram with
      | some (slot, prog) =>
        let s2 := s1.buildMap slot prog strip
        s2.respond p .ok 1 (s2.zoneData slot)
      | none => (s1.post .cc (.programRequired r.serial)).respond p .ok 0 [255, 0, 0, 0]

/-- ZONE. -/
def execZone (p : PortId) (mask : Vector Byte 8) (s : State) : Host.Outcome State Fault Refusal :=
  .next (s.finish (s.atomicRow p .zone (paramBytes (.zone p mask)) (doZone p mask)))

/-! ### ZREL -/

/-- The checks of ZREL in their order (R128): the sub-reason, or the strip and its map. -/
def State.zrelCheck (s : State) : Except SubReason (StripRecord × StripMap) :=
  match s.tracker.zone with
  | none => .error .noStrip
  | some r =>
    if r.binding = .waiting then .error .waiting
    else
      match s.map with
      | none => .error .incomplete
      | some m =>
        if m.complete = false then .error .incomplete
        else if s.tracker.clamp ≠ .none then .error .clamp
        else if (s.boundProgram m).exportRequired && !m.exportTaken then .error .export_
        else if s.tracker.pull.isSome then .error .pullBusy
        else .ok (r, m)

/-- The pull status that a release sets (R130). -/
def PullStatus.created (n : Nat) : PullStatus :=
  { state := if n = 0 then .none else .opened, outstanding := n, passed := 0, failed := 0 }

/-- The strip record that reaches PULL (R129, R130). -/
def StripRecord.released (r : StripRecord) (m : StripMap) (created : Nat) : StripRecord :=
  { r with outcomes := some (m.units.map (fun u => u.outcome?.getD .good)), pull := some (.created created) }

/-- A granted release (R129): outcomes and records, then the map discarded with the cursors, then the move to PULL. -/
def State.releaseZone (s : State) (r : StripRecord) (m : StripMap) : State :=
  let k := s.pull.walk m (s.boundProgram m)
  let s1 : State := { s with pull := k.store }
  let s2 := if 0 < k.short then s1.post .cc (.pullShort m.serial k.short k.created) else s1
  let s3 := s2.discardMap.clearCursors
  { s3 with tracker := { s3.tracker with zone := none, pull := some (r.released m k.created) } }

/-- The data of ZREL (R129). -/
def zrelData (m : StripMap) (created : Nat) : List Byte :=
  be32 m.serial.toNat
    ++ [b8 (m.outcomes .good), b8 (m.outcomes .suspect), b8 (m.outcomes .reject), b8 (m.outcomes .skipped), b8 created]

/-- ZREL at its taking (R128, R129); detail 0 of OK: (30). -/
def doZrel (p : PortId) (s : State) : State :=
  match s.zrelCheck with
  | .error why => s.refuseState p why
  | .ok (r, m) => (s.releaseZone r m).respond p .ok 0 (zrelData m (s.pull.walk m (s.boundProgram m)).created)

/-- ZREL. -/
def execZrel (p : PortId) (s : State) : Host.Outcome State Fault Refusal :=
  .next (s.finish (s.atomicRow p .zrel (paramBytes (.zrel p)) (doZrel p)))

/-! ### STOW -/

/-- The pull outcome of a strip (R132). -/
def PullStatus.outcome (k : PullStatus) : PullOutcome :=
  if 0 < k.failed then .fail else if 0 < k.passed then .pass else .none

/-- The contents of the slot a strip is stowed in (R132). -/
def StripRecord.stowed (r : StripRecord) : Stowed :=
  let n := fun o => (r.outcomes.getD []).countP (· == o)
  { serial := r.serial, good := n .good, suspect := n .suspect, reject := n .reject, skipped := n .skipped,
    pull := (r.pull.map PullStatus.outcome).getD .none }

/-- The pull status of a strip record is OPEN (R131). -/
def StripRecord.pullOpen (r : StripRecord) : Bool := (r.pull.map (·.state)) == some .opened

/-- The strip at PULL stowed in a slot of the output table (R132). -/
def State.stow (s : State) (r : StripRecord) (t : OutTable) (slot : Nat) : State :=
  let t' := { t with slots := t.slots.set slot (.stowed r.stowed) }
  let s1 : State := { s with tracker := { s.tracker with output := some t', pull := none } }
  if t'.free = 0 then (s1.post .cc (.magFull t'.id t'.stowed)).post .mh (.magFull t'.id t'.stowed) else s1

/-- The data of STOW (R132). -/
def stowData (c : Stowed) (free : Nat) : List Byte :=
  be32 c.serial.toNat ++ [b8 c.good, b8 c.suspect, b8 c.reject, b8 c.skipped, b8 c.pull.code, b8 free]

/-- STOW at its taking (R131, R132); detail 0 of OK: (30). -/
def doStow (p : PortId) (slot : Nat) (s : State) : State :=
  match s.tracker.pull with
  | none => s.refuseState p .noStrip
  | some r =>
    match s.tracker.output with
    | none => s.refuseState p .noMag
    | some t =>
      match t.slots[slot]? with
      | none => s.refuse p .range
      | some st =>
        if st ≠ .empty then s.refuseState p .slot
        else if r.pullOpen then s.respond p .busy 0 [b8 r.outstanding]
        else (s.stow r t slot).respond p .ok 0 (stowData r.stowed (t.free - 1))

/-- STOW. -/
def execStow (p : PortId) (slot : Byte) (s : State) : Host.Outcome State Fault Refusal :=
  .next (s.finish (s.atomicRow p .stow (paramBytes (.stow p slot)) (doStow p slot.toNat)))

/-! ### CLAMP and CLDONE -/

/-- The tracker with a clamp state. -/
def State.setClamp (s : State) (c : Clamp) : State := { s with tracker := { s.tracker with clamp := c } }

/-- The data of CLAMP (R134). -/
def State.clampData (s : State) : List Byte := [b8 s.firstCount, b8 s.openBalls]

/-- CLAMP at its taking (R134). -/
def doClamp (p : PortId) (s : State) : State :=
  match s.tracker.clamp with
  | .none =>
    if s.clampWait = 0 then (s.setClamp .granted).respond p .ok 0 s.clampData
    else (s.setClamp .requested).respond p .pending 0 s.clampData
  | .requested => s.respond p .pending 1 s.clampData
  | .granted => s.respond p .ok 1 s.clampData

/-- CLAMP. -/
def execClamp (p : PortId) (s : State) : Host.Outcome State Fault Refusal :=
  .next (s.finish (s.atomicRow p .clamp (paramBytes (.clamp p)) (doClamp p)))

/-- CLDONE at its taking (R136). -/
def doCldone (p : PortId) (s : State) : State :=
  ((s.setClamp .none).trigger).respond p .ok s.tracker.clamp.code []

/-- CLDONE. -/
def execCldone (p : PortId) (s : State) : Host.Outcome State Fault Refusal :=
  .next (s.finish (s.atomicRow p .cldone (paramBytes (.cldone p)) (doCldone p)))

end Sys2Proof.Machine
end

