-- ==== Sys2Proof/Machine/HoldCommands.lean ====
section
/-! DEFINITION. Hold Control (chapter 9): HOLD, RELEASE, SETCODE and the HOLDIN line. -/

namespace Sys2Proof.Machine

/-- The reason set and the enable as data bytes (R160, R162). -/
def Hold.bytes (h : Hold) : List Byte := [b8 h.reasons.code, flag8 h.enable]

/-- HOLD at its taking (R160). -/
def doHold (p : PortId) (s : State) : State :=
  let s1 := s.addReason 1 .operator
  s1.respond p .ok (if s.hold.reasons.operator then 0 else 1) s1.hold.bytes

/-- HOLD. -/
def execHold (p : PortId) (s : State) : Host.Outcome State Fault Refusal :=
  .next (s.finish (s.atomicRow p .hold (paramBytes (.hold p)) (doHold p)))

/-- The reasons named by a mask that RELEASE may clear with a code (R162). -/
def Hold.clearable (h : Hold) (named : Reasons) (code : W16) : Reasons :=
  { operator := named.operator && h.reasons.operator
    line := named.line && h.reasons.line && !h.holdin
    pullFail := named.pullFail && h.reasons.pullFail && (h.code == 0 || code == h.code)
    restart := named.restart && h.reasons.restart }

/-- The result and detail of RELEASE, decided by the reasons named, present and kept (R162; detail 0 of OK and of CODE:
(30)). -/
def releaseAnswer (named present cleared : Reasons) : CmdResult × Nat :=
  if named.pullFail && present.pullFail && !cleared.pullFail then (.code, 0)
  else if named.line && present.line && !cleared.line then (.state, SubReason.line.code)
  else (.ok, 0)

/-- RELEASE at its taking (R162); RANGE without data: (35). -/
def doRelease (p : PortId) (mask : Nat) (code : W16) (s : State) : State :=
  if 15 < mask then s.refuse p .range
  else
    let named := Reasons.ofMask mask
    let cleared := s.hold.clearable named code
    let answer := releaseAnswer named s.hold.reasons cleared
    let s1 := s.removeReasons 5 cleared
    s1.respond p answer.1 answer.2 (b8 cleared.code :: s1.hold.bytes)

/-- RELEASE. -/
def execRelease (p : PortId) (mask : Byte) (code : W16) (s : State) : Host.Outcome State Fault Refusal :=
  .next (s.finish (s.atomicRow p .release (paramBytes (.release p mask code)) (doRelease p mask.toNat code)))

/-- SETCODE at its taking (R164). -/
def doSetcode (p : PortId) (old new : W16) (s : State) : State :=
  if s.hold.reasons.pullFail then s.refuseState p .pullFail
  else if old ≠ s.hold.code then s.refuse p .code
  else { s with hold := { s.hold with code := new } }.respond p .ok (if new = 0 then 0 else 1) []

/-- SETCODE. -/
def execSetcode (p : PortId) (old new : W16) (s : State) : Host.Outcome State Fault Refusal :=
  .next (s.finish (s.atomicRow p .setcode (paramBytes (.setcode p old new)) (doSetcode p old new)))

/-- HOLDIN at a level. -/
def State.setHoldin (s : State) (level : Bool) : State := { s with hold := { s.hold with holdin := level } }

/-- HOLDIN_ACTIVE (R159); a line that is active already does not change (10). -/
def execHoldinActive (s : State) : Host.Outcome State Fault Refusal :=
  .next (s.finish (if s.hold.holdin then s else (s.setHoldin true).addReason 2 .line))

/-- HOLDIN_INACTIVE (R159); a line that is inactive already does not change (10). -/
def execHoldinInactive (s : State) : Host.Outcome State Fault Refusal :=
  .next (s.finish (if s.hold.holdin then (s.setHoldin false).removeReasons 3 (.single .line) else s))

end Sys2Proof.Machine
end

