-- ==== Sys2Proof/Machine/ScreenCommands.lean ====
section
/-! DEFINITION. The Screen Composer (chapter 10): regions, WTXT, PNLRDY and the bytes of DL. -/

namespace Sys2Proof.Machine

/-! ### RGDEF and RGDEL -/

/-- Two rectangles share a cell (R169). -/
def Region.overlaps (r q : Region) : Bool :=
  decide (r.left < q.left + q.width ∧ q.left < r.left + r.width ∧ r.top < q.top + q.height ∧ q.top < r.top + r.height)

/-- The region of an index. -/
def Screen.region? (c : Screen) (i : Nat) : Option Region := c.regions[i]?.join

/-- The region shares a cell with a defined region (R170). -/
def Screen.clashes (c : Screen) (r : Region) : Bool :=
  c.regions.toList.any (fun o => match o with | some q => r.overlaps q | none => false)

/-- The number of regions defined (R170). -/
def Screen.regionCount (c : Screen) : Nat := c.regions.toList.countP Option.isSome

/-- The owner that RGDEF's owner, field kind and attribute bytes name (R170). -/
def ownerOf (owner kind : Nat) (attr : Byte) : Owner :=
  if owner = 4 then .auto (.ofCode kind) (.ofByte attr) else .port (ownerPort owner)

/-- The size is at least the minimum of an AUTO owner's field kind (R170, R175). -/
def Region.fitsField (r : Region) : Bool :=
  match r.owner with
  | .auto k _ => decide (k.minWidth ≤ r.width ∧ k.minHeight ≤ r.height)
  | .port _ => true

/-- The screen with a region defined; an AUTO region is rendered at once (R170). -/
def State.defineRegion (s : State) (i : Nat) (r : Region) : State :=
  let c := { s.screen with regions := s.screen.regions.setIfInBounds i (some r) }
  match r.owner with
  | .auto k attr => { s with screen := c.render s.hold.banner r attr (s.fieldText k) }
  | .port _ => { s with screen := c }

/-- RGDEF at its taking (R170); detail 0 of OK: (30). -/
def doRgdef (p : PortId) (i owner kind left top width height : Nat) (attr : Byte) (s : State) : State :=
  let r : Region := { left := left, top := top, width := width, height := height, owner := ownerOf owner kind attr }
  if 7 < i ∨ 4 < owner ∨ attrBad attr.toNat = true then s.refuse p .range
  else if owner = 4 ∧ 4 < kind then s.refuse p .range
  else if width = 0 ∨ height = 0 ∨ Config.columns < left + width ∨ Config.rows < top + height then s.refuse p .range
  else if !r.fitsField then s.refuse p .range
  else if s.screen.clashes r then s.refuseState p .overlap
  else if (s.screen.region? i).isSome then s.refuse p .inUse
  else
    let s1 := s.defineRegion i r
    s1.respond p .ok 0 [b8 s1.screen.regionCount]

/-- RGDEF. -/
def execRgdef (p : PortId) (index owner kind left top width height attr : Byte) (s : State) :
    Host.Outcome State Fault Refusal :=
  .next (s.finish (s.atomicRow p .rgdef (paramBytes (.rgdef p index owner kind left top width height attr))
    (doRgdef p index.toNat owner.toNat kind.toNat left.toNat top.toNat width.toNat height.toNat attr)))

/-- A WTXT bound to a region cut off by its deletion (R171, R174). -/
def Port.cutText (q : Port) (i : Nat) : Port :=
  match q.framing with
  | .wtxtText j _ _ _ => if j = i then { q with framing := .wtxtCut } else q
  | _ => q

/-- RGDEL at its taking (R171); detail 0 of OK: (30). -/
def doRgdel (p : PortId) (i : Nat) (s : State) : State :=
  if 7 < i then s.refuse p .range
  else
    match s.screen.region? i with
    | none => s.refuse p .notFound
    | some r =>
      let s1 : State := { s with
        screen := { s.screen with regions := s.screen.regions.setIfInBounds i none }
        ports := s.ports.map (fun q => q.cutText i) }
      s1.respond p .ok 0 [b8 r.owner.code, b8 r.owner.kindCode]

/-- RGDEL. -/
def execRgdel (p : PortId) (index : Byte) (s : State) : Host.Outcome State Fault Refusal :=
  .next (s.finish (s.atomicRow p .rgdel (paramBytes (.rgdel p index)) (doRgdel p index.toNat)))

/-! ### WTXT -/

/-- The checks of the header of WTXT in their order (R172): the previous-result, and the framing it leads to. -/
def Screen.checkHeader (c : Screen) (p : PortId) (i col row : Nat) (attr : Byte) : CmdResult × Framing :=
  if 7 < i then (.range, .ignore)
  else
    match c.region? i with
    | none => (.notFound, .ignore)
    | some r =>
      if r.owner ≠ .port p then (.role, .ignore)
      else if r.width ≤ col ∨ r.height ≤ row then (.range, .ignore)
      else if attrBad attr.toNat then (.range, .ignore)
      else (.ok, .wtxtText i col row (.ofByte attr))

/-- The header of WTXT taken on a port that waits for it (R172). -/
def State.takeWtxtHeader (s : State) (p : PortId) (bytes : List Byte) : State :=
  let r := s.screen.checkHeader p (p8 bytes 0) (p8 bytes 1) (p8 bytes 2) (bytes.getD 3 0)
  s.setPort p { s.port p with previous := r.1, framing := r.2 }

/-- The write pointer after a text byte, within a region of this size (R173). -/
def nextCell (width height col row : Nat) : Nat × Nat :=
  if col + 1 < width then (col + 1, row) else if row + 1 < height then (0, row + 1) else (0, 0)

/-- A text byte of a WTXT bound to a region (R173). -/
def State.takeText (s : State) (p : PortId) (i col row : Nat) (attr : Attr) (ch : Byte) : State :=
  match s.screen.region? i with
  | none => s
  | some r =>
    let next := nextCell r.width r.height col row
    let s1 : State := { s with
      screen := s.screen.write s.hold.banner (r.top + row) (r.left + col) { ch := ch, attr := attr } }
    s1.setPort p { s1.port p with framing := .wtxtText i next.1 next.2 attr }

/-! ### PNLRDY and DL -/

/-- Every row dirty (R180). -/
def allDirty : Vector Bool 20 := Vector.replicate 20 true

/-- PNLRDY rises (R182). -/
def Screen.ready (c : Screen) (b : Banner) : Screen := { c with pnlrdy := true, dirty := allDirty }.kick b

/-- PNLRDY_RISE; a line that is active already does not rise (10). -/
def execPnlrdyRise (s : State) : Host.Outcome State Fault Refusal :=
  .next (s.finish (if s.screen.pnlrdy then s else { s with screen := s.screen.ready s.hold.banner }))

/-- PNLRDY falls (R182): a transfer in flight is abandoned and its row is dirty again; the bytes in the transmitter are
discarded ((14) for a last byte still in the shift byte). -/
def Screen.notReady (c : Screen) : Screen :=
  let c1 := match c.tx with
    | some t => c.markDirty t.row
    | none => c
  { c1 with pnlrdy := false, tx := none, holding := none, shift := none }

/-- PNLRDY_FALL; a line that is inactive already does not fall (10). -/
def execPnlrdyFall (s : State) : Host.Outcome State Fault Refusal :=
  .next (s.finish (if s.screen.pnlrdy then { s with screen := s.screen.notReady } else s))

/-- The level of DL at rest (section 11.8). -/
def dlRest : Bool := true

/-- A byte on DL as ten bits in the order of sending: the start bit, the data bits from the least significant on, the stop
bit (section 11.8). -/
def dlFrame (x : Byte) : List Bool := false :: (List.range 8).map (fun i => x.getLsbD i) ++ [true]

/-- The level of DL in a bit time counted from the taking of the byte in the shift byte; at rest where the shift byte holds
none (R181, R182; the bit time is no state of the model: (32)). -/
def Screen.dl (c : Screen) (bit : Nat) : Bool :=
  match c.shift with
  | some x => (dlFrame x).getD bit dlRest
  | none => dlRest

/-- The end of a transfer whose last byte has passed into the shift byte (R181): the next row, or IDLE. -/
def Screen.endTransfer (c : Screen) (b : Banner) : Screen :=
  if c.tx.isSome && c.holding.isNone then { c with tx := none }.kick b else c

/-- The shift byte empties (R181); where it holds no byte, nothing changes (31). -/
def Screen.byteSent (c : Screen) (b : Banner) : Screen :=
  if c.shift.isNone then c else (({ c with shift := none }.pass).load).endTransfer b

/-- DL_BYTE_SENT. -/
def execDlByteSent (s : State) : Host.Outcome State Fault Refusal :=
  .next (s.finish { s with screen := s.screen.byteSent s.hold.banner })

end Sys2Proof.Machine
end

