-- ==== Sys2Proof/Machine/Framing.lean ====
section
/-! DEFINITION. The Port Interface (chapter 11): STAT, NOTE, RESTART and RST, command bytes and parameter bytes, and the
rows of the streaming commands. -/

namespace Sys2Proof.Machine

/-! ### STAT and NOTE -/

/-- The eight data bytes of STAT (R192). -/
def State.statData (s : State) (p : PortId) : List Byte :=
  let q := s.port p
  let feed := p.head?.map (fun h => s.feed h)
  [b8 p.code, q.previous.byte, b8 q.queue.length, flag8 q.lost, b8 s.hold.reasons.code, flag8 s.hold.enable,
    b8 ((feed.map (fun f => f.state.code)).getD 0), b8 ((feed.map (fun f => f.tickets.length)).getD 0)]

/-- STAT at its taking (R192). -/
def doStat (p : PortId) (s : State) : State :=
  (s.setPort p { s.port p with lost := false }).respond p .ok 0 (s.statData p)

/-- STAT. -/
def execStat (p : PortId) (s : State) : Host.Outcome State Fault Refusal :=
  .next (s.finish (s.atomicRow p .stat (paramBytes (.stat p)) (doStat p)))

/-- NOTE at its taking (R194). -/
def doNote (p : PortId) (k : Nat) (s : State) : State :=
  if k = 0 ∨ 16 < k then s.refuse p .range
  else
    let q := (s.port p).queue
    let taken := q.take k
    (s.setPort p { s.port p with queue := q.drop k }).respond p .ok taken.length
      (taken.flatMap Notice.bytes ++ List.replicate (8 * (k - taken.length)) 0)

/-- NOTE. -/
def execNote (p : PortId) (k : Byte) (s : State) : Host.Outcome State Fault Refusal :=
  .next (s.finish (s.atomicRow p .note (paramBytes (.note p k)) (doNote p k.toNat)))

/-! ### RESTART -/

/-- A feed after RESTART (R65): empty and OFF, without cursor and fill; a waiting NEXT or CLAIM stays (R195). -/
def Feed.restart (f : Feed) : Feed := { f.turnOff with tickets := [], cursor := none }

/-- A Bond Capture after RESTART (R113, R116): disarmed, an open window silenced. -/
def BondCapture.restart (c : BondCapture) : BondCapture :=
  { c with armed := none, window := c.window.map (fun _ => Window.silenced) }

/-- The Position Tracker after RESTART (R138). -/
def Tracker.restart (t : Tracker) : Tracker := { t with feed := none, zone := none, pull := none, clamp := .none }

/-- The Pull Record Store after RESTART (R155). -/
def PullStore.restart (p : PullStore) : PullStore :=
  { p with
    records := p.records.map (fun r => if r.open? then { r with state := .void } else r)
    capture := none
    selection := [] }

/-- A port's queue emptied with its lost flag cleared, and the RESTART notice posted to it (R195). -/
def Port.restart (q : Port) : Port := { q with queue := [.restart q.queue.length q.lost], lost := false }

/-- The partial groups emptied on the channels of the captures that RESTART discards (R86). -/
def State.emptyCaptures (s : State) : State :=
  let s1 := if (s.capture .a).window.isSome then s.emptyHead .a else s
  let s2 := if (s.capture .b).window.isSome then s1.emptyHead .b else s1
  if s.pull.capture.isSome then s2.emptyChan .pf else s2

/-- What RESTART discards in the blocks (R16, R37, R65, R113, R138, R155). -/
def State.discardWork (s : State) : State :=
  let s1 := s.emptyCaptures.discardMap
  { s1 with
    issuer := { s1.issuer with feeds := ⟨s1.issuer.feeds.a.restart, s1.issuer.feeds.b.restart⟩ }
    bond := ⟨s1.bond.a.restart, s1.bond.b.restart⟩
    tracker := s1.tracker.restart
    pull := s1.pull.restart }

/-- RESTART at its taking (R167, R195). -/
def doRestart (p : PortId) (s : State) : State :=
  let s1 := s.discardWork
  ({ s1 with ports := s1.ports.map Port.restart }.addReason 7 .restart).respond p .ok 0 []

/-- RESTART. -/
def execRestart (p : PortId) (s : State) : Host.Outcome State Fault Refusal :=
  .next (s.finish (s.atomicRow p .restart (paramBytes (.restart p)) (doRestart p)))

/-! ### RST -/

/-- Hold Control at the release of RST (R166). -/
def Hold.released (holdin : Bool) : Hold := { Hold.reset with reasons := { Reasons.empty with line := holdin }, holdin := holdin }

/-- The Screen Composer at the release of RST: an active PNLRDY counts as a rise (R183). -/
def Screen.released (pnlrdy : Bool) (b : Banner) : Screen := if pnlrdy then Screen.reset.ready b else Screen.reset

/-- The part at the release of RST with its input lines at these levels (R115, R166, R183, R184, R196); the commands that
wait outside the part stay. -/
def State.released (lines : LineLevels) (pending : List Instr) : State :=
  { State.reset with
    ports := ⟨{ Port.reset with ignoring := lines.selHA }, { Port.reset with ignoring := lines.selHB },
      { Port.reset with ignoring := lines.selCC }, { Port.reset with ignoring := lines.selMH }⟩
    bond := ⟨{ BondCapture.reset with win := lines.winA }, { BondCapture.reset with win := lines.winB }⟩
    hold := Hold.released lines.holdin
    screen := Screen.released lines.pnlrdy (Hold.released lines.holdin).banner
    pending := pending }

/-- RST. -/
def execRst (lines : LineLevels) (s : State) : Host.Outcome State Fault Refusal := .next (State.released lines s.pending)

/-! ### Command bytes -/

/-- UNKNOWN_COMMAND on a port that counts bytes (R187). -/
def State.unknownCommand (s : State) (p : PortId) : State :=
  (s.setPort p (s.port p).commandByte).refuse p .unknown

/-- UNKNOWN_COMMAND (R184, R187). -/
def execUnknownCommand (p : PortId) (value : Byte) (s : State) : Host.Outcome State Fault Refusal :=
  if (Cmd.ofCode value).isSome then .fault .illFormed
  else .next (s.finish (if (s.port p).ignoring then s else s.unknownCommand p))

/-- The command byte of a known command that is not taken at once, on any port (R184, R187). -/
def State.commandByte (s : State) (p : PortId) (c : Cmd) : State :=
  if (s.port p).ignoring then s else s.setPort p ((s.port p).startCommand p c)

/-- COMMAND_BYTE (R187). -/
def execCommandByte (p : PortId) (c : Cmd) (s : State) : Host.Outcome State Fault Refusal :=
  if c.takenAtOnce then .fault .illFormed else .next (s.finish (s.commandByte p c))

/-- Select released after this many bits of a byte (R184, R185): the bits are discarded, and a port that ignored its clock
counts bytes again. The first of the bits fixed the byte on data out (R189). -/
def Port.release (q : Port) (bits : Nat) : Port :=
  { q with
    unfinished := none
    ignoring := false
    dataOut := if bits = 0 ∨ q.ignoring = true then q.dataOut else q.fixedOut }

/-- SELECT_RELEASE (R184, R185). -/
def execSelectRelease (p : PortId) (bits : Nat) (s : State) : Host.Outcome State Fault Refusal :=
  if 7 < bits then .fault .illFormed else .next (s.finish (s.setPort p ((s.port p).release bits)))

/-! ### Parameter bytes -/

/-- A 16-bit parameter that starts at byte `i`. -/
def w16 (bs : List Byte) (i : Nat) : W16 := BitVec.ofNat 16 (p16 bs i)

/-- An atomic command carried out with its parameter bytes, in the order its entry gives (R186, R188). -/
def carryOut (c : Cmd) (p : PortId) (bs : List Byte) : State → State :=
  match c with
  | .stat => doStat p
  | .note => doNote p (p8 bs 0)
  | .run => withHead p (doRun p (p16 bs 0) (p8 bs 2) (p8 bs 3) (p8 bs 4) (p8 bs 5) (p8 bs 6))
  | .halt => withHead p (doHalt p)
  | .next => withHead p (doNext p)
  | .claim => withHead p (doClaim p (p8 bs 0) (p16 bs 1))
  | .cancel => withHead p (doCancel p (p8 bs 0))
  | .arm => withHead p (doArm p (p8 bs 0))
  | .disarm => withHead p (doDisarm p)
  | .freset => withHead p (doFreset p)
  | .clrstop => withHead p (doClrstop p)
  | .hstat => withHead p (doHstat p)
  | .pload => doPload p (p8 bs 0) (w16 bs 1) (p8 bs 3) (p16 bs 4) (p16 bs 6) (p8 bs 8) (p8 bs 9)
  | .limset => doLimset p (p8 bs 0) (.ofBytes bs 1) (.ofBytes bs 17) (p16 bs 33)
  | .psel => doPsel p (p8 bs 0)
  | .pfree => doPfree p (p8 bs 0)
  | .skipu => doSkipu p (p8 bs 0)
  | .maprd => doMaprd p (p8 bs 0) (p8 bs 1)
  | .maptake => doMaptake p
  | .guard => doGuard p (p16 bs 0)
  | .chcfg =>
    doChcfg p (p8 bs 0) (p8 bs 1) (p8 bs 2) (p8 bs 3) (signed24 (p24 bs 4)) (p8 bs 7) (p24 bs 8) (p8 bs 11) (p16 bs 12)
  | .splan => doSplan p (p8 bs 0) (p8 bs 1) (p8 bs 2) (bs.drop 3)
  | .ptake => doPtake p (p8 bs 0)
  | .hold => doHold p
  | .release => doRelease p (p8 bs 0) (w16 bs 1)
  | .setcode => doSetcode p (w16 bs 0) (w16 bs 2)
  | .rgdef =>
    doRgdef p (p8 bs 0) (p8 bs 1) (p8 bs 2) (p8 bs 3) (p8 bs 4) (p8 bs 5) (p8 bs 6) (bs.getD 7 0)
  | .rgdel => doRgdel p (p8 bs 0)
  | .restart => doRestart p
  | .mgrd => doMgrd p (p8 bs 0)
  | .magld => doMagld p (p8 bs 0) (w16 bs 1) (p8 bs 3) (bs.drop 4)
  | .magul => doMagul p (p8 bs 0)
  | .feed => doFeed p (p8 bs 0) (BitVec.ofNat 32 (p32 bs 1))
  | .zone => doZone p (Vector.ofFn (fun i : Fin 8 => bs.getD i.val 0))
  | .zrel => doZrel p
  | .stow => doStow p (p8 bs 0)
  | .clamp => doClamp p
  | .cldone => doCldone p
  | .pstart => doPstart p (p16 bs 0)
  | .pend => doPend p (p16 bs 0) (p8 bs 2)
  | .pvoid => doPvoid p (p16 bs 0)
  | .wtxt | .pwire => id

/-- A parameter byte that completes on a port, by the state of the port (R187, R189; R6, R7, R172 to R174). -/
def State.paramByte (s : State) (p : PortId) (d : Byte) : State :=
  let q : Port := { s.port p with dataOut := (s.port p).outByte, unfinished := none }
  let s1 := s.setPort p q
  match q.framing with
  | .response (_ :: rest) => s1.setPort p { q with framing := .response rest }
  | .response [] | .waiting | .idle | .ignore => s1
  | .params c received =>
    if received.length + 1 < c.paramCount then s1.setPort p { q with framing := .params c (received ++ [d]) }
    else (s1.setPort p { q with framing := .idle }).takeAtomic p c (carryOut c p (received ++ [d]))
  | .pwireSlot => s1.takePwireSlot p d.toNat
  | .pwireGroups slot received =>
    if received.length + 1 < 6 then s1.setPort p { q with framing := .pwireGroups slot (received ++ [d]) }
    else s1.takePwireGroup p slot (received ++ [d])
  | .wtxtHeader received =>
    if received.length + 1 < 4 then s1.setPort p { q with framing := .wtxtHeader (received ++ [d]) }
    else s1.takeWtxtHeader p (received ++ [d])
  | .wtxtText i col row attr => s1.takeText p i col row attr d
  | .wtxtCut => s1.setPort p { q with previous := .notFound, framing := .ignore }

/-- The event of a parameter byte on a port (R184). -/
def State.byteEvent (s : State) (p : PortId) (d : Byte) : State :=
  if (s.port p).ignoring then s else s.finish (s.paramByte p d)

/-- Parameter bytes that complete on a port one after another. -/
def State.deliver (s : State) (p : PortId) (bytes : List Byte) : State := bytes.foldl (fun s d => s.byteEvent p d) s

/-- READOUT_BYTE: a parameter byte that completes (R189; (27)). -/
def execReadoutByte (p : PortId) (dataIn : Byte) (s : State) : Host.Outcome State Fault Refusal :=
  .next (s.byteEvent p dataIn)

/-! ### Clock edges (R184, R185, R189; the rows stand for whole bytes: (4)) -/

/-- A command byte of any value (R187, R188). -/
def State.commandValue (s : State) (p : PortId) (value : Byte) : State :=
  match Cmd.ofCode value with
  | none => s.unknownCommand p
  | some c => if c.takenAtOnce then s.atomicRow p c [] (carryOut c p []) else s.commandByte p c

/-- The event of a byte that completes with this level of the mode line (R184): low makes it a command byte, high a parameter
byte. -/
def State.wholeByte (s : State) (p : PortId) (value : Byte) (mode : Bool) : State :=
  if mode then s.byteEvent p value else s.finish (s.commandValue p value)

/-- The event of a byte at whose first clock the response of the port was not yet loaded (R188, R189): the port was WAITING
then, so data out carries FFh, and a parameter byte consumes nothing. -/
def State.lateByte (s : State) (p : PortId) (value : Byte) (mode : Bool) : State :=
  if mode then s
  else
    let t := s.wholeByte p value mode
    t.setPort p { t.port p with dataOut := (s.port p).dataOut }

/-- A rising edge of a port's clock while its select is active, with the levels of data in and mode (R184): a bit of the byte
in progress, the most significant first, which completes with its eighth bit. -/
def State.clockEdge (s : State) (p : PortId) (dataIn mode : Bool) : State :=
  let q := s.port p
  if q.ignoring then s
  else
    let u := q.inProgress
    let bits := u.bits ++ [dataIn]
    if bits.length < 8 then
      s.setPort p { q with dataOut := q.fixedOut, unfinished := some { u with bits := bits } }
    else
      let s1 := s.setPort p { q with dataOut := q.fixedOut, unfinished := none }
      if q.unread && !u.reads then s1.lateByte p (b8 (ofMsbFirst bits)) mode
      else s1.wholeByte p (b8 (ofMsbFirst bits)) mode

/-! ### The rows of the streaming commands -/

/-- The part of some bytes that a port has not received yet, where what it received is their beginning. -/
def unreceived (received bytes : List Byte) : Option (List Byte) :=
  if received.isPrefixOf bytes && decide (received.length < bytes.length) then some (bytes.drop received.length) else none

/-- PWIRE with its slot byte (R6): a port that does not wait for one receives the command byte first (3). -/
def execPwire (p : PortId) (slot : Byte) (s : State) : Host.Outcome State Fault Refusal :=
  if (s.port p).framing = .pwireSlot then .next (s.deliver p (paramBytes (.pwire p slot)))
  else .next ((s.commandByte p .pwire).deliver p (paramBytes (.pwire p slot)))

/-- The bytes of a group that are still to come (3). -/
def Port.groupBytes (q : Port) (bytes : List Byte) : List Byte :=
  match q.framing with
  | .pwireGroups _ received => (unreceived received bytes).getD bytes
  | _ => bytes

/-- PWIRE_GROUP (R7, R8). -/
def execPwireGroup (p : PortId) (tier : Byte) (x : W16) (limitSet profile flags : Byte) (s : State) :
    Host.Outcome State Fault Refusal :=
  .next (s.deliver p ((s.port p).groupBytes (paramBytes (.pwireGroup p tier x limitSet profile flags))))

/-- The bytes of a header that are still to come, none on a port that does not take a header (3). -/
def Port.headerBytes (q : Port) (bytes : List Byte) : Option (List Byte) :=
  match q.framing with
  | .wtxtHeader received => unreceived received bytes
  | _ => none

/-- WTXT with its header (R172): a port that does not wait for one receives the command byte first (3). -/
def execWtxt (p : PortId) (index column row attr : Byte) (s : State) : Host.Outcome State Fault Refusal :=
  match (s.port p).headerBytes (paramBytes (.wtxt p index column row attr)) with
  | some rest => .next (s.deliver p rest)
  | none => .next ((s.commandByte p .wtxt).deliver p (paramBytes (.wtxt p index column row attr)))

/-- WTXT_TEXT_BYTE (R173, R174). -/
def execWtxtTextByte (p : PortId) (ch : Byte) (s : State) : Host.Outcome State Fault Refusal :=
  .next (s.deliver p (paramBytes (.wtxtTextByte p ch)))

end Sys2Proof.Machine
end

