-- ==== Sys2Proof/Machine/Dispatch.lean ====
section
/-! DEFINITION. One arm for each constructor of Instr. -/

namespace Sys2Proof.Machine

def exec (i : Instr) (s : State) : Host.Outcome State Fault Refusal :=
  match i with
  | .stat p => Sys2Proof.Machine.execStat p s
  | .note p k => Sys2Proof.Machine.execNote p k s
  | .wtxt p index column row attr => Sys2Proof.Machine.execWtxt p index column row attr s
  | .wtxtTextByte p ch => Sys2Proof.Machine.execWtxtTextByte p ch s
  | .pwire p slot => Sys2Proof.Machine.execPwire p slot s
  | .pwireGroup p tier x limitSet profile flags => Sys2Proof.Machine.execPwireGroup p tier x limitSet profile flags s
  | .unknownCommand p value => Sys2Proof.Machine.execUnknownCommand p value s
  | .readoutByte p dataIn => Sys2Proof.Machine.execReadoutByte p dataIn s
  | .selectRelease p bits => Sys2Proof.Machine.execSelectRelease p bits s
  | .run p count traversal fixedUnit order delivery depth => Sys2Proof.Machine.execRun p count traversal fixedUnit order delivery depth s
  | .halt p => Sys2Proof.Machine.execHalt p s
  | .next p => Sys2Proof.Machine.execNext p s
  | .claim p unit wire => Sys2Proof.Machine.execClaim p unit wire s
  | .arbiterServe => Sys2Proof.Machine.execArbiterServe s
  | .fillServe => Sys2Proof.Machine.execFillServe s
  | .cancel p ticket => Sys2Proof.Machine.execCancel p ticket s
  | .freset p => Sys2Proof.Machine.execFreset p s
  | .hstat p => Sys2Proof.Machine.execHstat p s
  | .arm p ticket => Sys2Proof.Machine.execArm p ticket s
  | .disarm p => Sys2Proof.Machine.execDisarm p s
  | .clrstop p => Sys2Proof.Machine.execClrstop p s
  | .pload p slot label units pitch wires tiers flags => Sys2Proof.Machine.execPload p slot label units pitch wires tiers flags s
  | .limset p index ball stitch pullMin => Sys2Proof.Machine.execLimset p index ball stitch pullMin s
  | .psel p slot => Sys2Proof.Machine.execPsel p slot s
  | .pfree p slot => Sys2Proof.Machine.execPfree p slot s
  | .skipu p unit => Sys2Proof.Machine.execSkipu p unit s
  | .maprd p first count => Sys2Proof.Machine.execMaprd p first count s
  | .maptake p => Sys2Proof.Machine.execMaptake p s
  | .guard p g => Sys2Proof.Machine.execGuard p g s
  | .chcfg p channel flags d sh o metric t n timeout => Sys2Proof.Machine.execChcfg p channel flags d sh o metric t n timeout s
  | .splan p period limit count units => Sys2Proof.Machine.execSplan p period limit count units s
  | .ptake p k => Sys2Proof.Machine.execPtake p k s
  | .hold p => Sys2Proof.Machine.execHold p s
  | .release p mask code => Sys2Proof.Machine.execRelease p mask code s
  | .setcode p old new => Sys2Proof.Machine.execSetcode p old new s
  | .rgdef p index owner kind left top width height attr => Sys2Proof.Machine.execRgdef p index owner kind left top width height attr s
  | .rgdel p index => Sys2Proof.Machine.execRgdel p index s
  | .restart p => Sys2Proof.Machine.execRestart p s
  | .mgrd p side => Sys2Proof.Machine.execMgrd p side s
  | .magld p side id count occupied => Sys2Proof.Machine.execMagld p side id count occupied s
  | .magul p side => Sys2Proof.Machine.execMagul p side s
  | .feed p slot serial => Sys2Proof.Machine.execFeed p slot serial s
  | .zone p mask => Sys2Proof.Machine.execZone p mask s
  | .zrel p => Sys2Proof.Machine.execZrel p s
  | .stow p slot => Sys2Proof.Machine.execStow p slot s
  | .clamp p => Sys2Proof.Machine.execClamp p s
  | .cldone p => Sys2Proof.Machine.execCldone p s
  | .pstart p id => Sys2Proof.Machine.execPstart p id s
  | .pend p id mode => Sys2Proof.Machine.execPend p id mode s
  | .pvoid p id => Sys2Proof.Machine.execPvoid p id s
  | .windowOpen h => Sys2Proof.Machine.execWindowOpen h s
  | .windowClose h => Sys2Proof.Machine.execWindowClose h s
  | .holdinActive => Sys2Proof.Machine.execHoldinActive s
  | .holdinInactive => Sys2Proof.Machine.execHoldinInactive s
  | .pnlrdyRise => Sys2Proof.Machine.execPnlrdyRise s
  | .pnlrdyFall => Sys2Proof.Machine.execPnlrdyFall s
  | .dlByteSent => Sys2Proof.Machine.execDlByteSent s
  | .rst lines => Sys2Proof.Machine.execRst lines s
  | .addressWord l payload => Sys2Proof.Machine.execAddressWord l payload s
  | .dataWord l payload => Sys2Proof.Machine.execDataWord l payload s
  | .framingError l => Sys2Proof.Machine.execFramingError l s
  | .absenceExpiry l => Sys2Proof.Machine.execAbsenceExpiry l s
  | .commandByte p c => Sys2Proof.Machine.execCommandByte p c s
  | .lineReturnsToRest l => Sys2Proof.Machine.execLineReturnsToRest l s

end Sys2Proof.Machine
end

