-- ==== Sys2Proof/Machine/Step.lean ====
section
/-! DEFINITION. One step: the command in front of the queue. -/

namespace Sys2Proof.Machine

/-- The part takes the command in front of the queue and leaves the rest waiting; on an empty queue it idles (2). -/
def step (s : State) : Host.Outcome State Fault Refusal :=
  match s.pending with
  | [] => .next s
  | c :: rest => exec c { s with pending := rest }

/-- The state with the command that a word spells put in front of its queue; no word spells one (24). -/
def State.withFetchWord (s : State) (nbits w : Nat) : State :=
  match decodeTableWord nbits w with
  | some c => { s with pending := c :: s.pending }
  | none => s

end Sys2Proof.Machine
end

