-- ==== Sys2Proof/Safety.lean ====
section
/-! DEFINITION. The laws of the part that the manual says are kept: predicates on the state, for the statements; and the
command of a row. -/

namespace Sys2Proof

/-- The port and the command of an atomic command's row. The streaming rows and the rows that are no command have none. -/
def Instr.command? : Instr → Option (PortId × Cmd)
  | .stat p => some (p, .stat)
  | .note p _ => some (p, .note)
  | .run p _ _ _ _ _ _ => some (p, .run)
  | .halt p => some (p, .halt)
  | .next p => some (p, .next)
  | .claim p _ _ => some (p, .claim)
  | .cancel p _ => some (p, .cancel)
  | .arm p _ => some (p, .arm)
  | .disarm p => some (p, .disarm)
  | .freset p => some (p, .freset)
  | .clrstop p => some (p, .clrstop)
  | .hstat p => some (p, .hstat)
  | .pload p _ _ _ _ _ _ _ => some (p, .pload)
  | .limset p _ _ _ _ => some (p, .limset)
  | .psel p _ => some (p, .psel)
  | .pfree p _ => some (p, .pfree)
  | .skipu p _ => some (p, .skipu)
  | .maprd p _ _ => some (p, .maprd)
  | .maptake p => some (p, .maptake)
  | .guard p _ => some (p, .guard)
  | .chcfg p _ _ _ _ _ _ _ _ _ => some (p, .chcfg)
  | .splan p _ _ _ _ => some (p, .splan)
  | .ptake p _ => some (p, .ptake)
  | .hold p => some (p, .hold)
  | .release p _ _ => some (p, .release)
  | .setcode p _ _ => some (p, .setcode)
  | .rgdef p _ _ _ _ _ _ _ _ => some (p, .rgdef)
  | .rgdel p _ => some (p, .rgdel)
  | .restart p => some (p, .restart)
  | .magld p _ _ _ _ => some (p, .magld)
  | .magul p _ => some (p, .magul)
  | .feed p _ _ => some (p, .feed)
  | .zone p _ => some (p, .zone)
  | .zrel p => some (p, .zrel)
  | .stow p _ => some (p, .stow)
  | .clamp p => some (p, .clamp)
  | .cldone p => some (p, .cldone)
  | .pstart p _ => some (p, .pstart)
  | .pend p _ _ => some (p, .pend)
  | .pvoid p _ => some (p, .pvoid)
  | .mgrd p _ => some (p, .mgrd)
  | _ => none

end Sys2Proof

namespace Sys2Proof.Machine

/-- The hold law (R156, R159): the enable is set only while the reason set is empty, and LINE is present exactly while
HOLDIN is active. -/
def State.holdLaw (s : State) : Prop :=
  (s.hold.enable = true → s.hold.reasons = .empty) ∧ s.hold.reasons.line = s.hold.holdin

/-- The law of one feed: its depth and list size (R38, R41), distinct ticket numbers (R40), not RUNNING while its touch latch
is set (R42), a fill request only while RUNNING in PUSH delivery (R51). -/
def Feed.law (f : Feed) : Prop :=
  1 ≤ f.depth ∧ f.depth ≤ Config.listCapacity ∧ f.tickets.length ≤ Config.listCapacity
    ∧ (f.tickets.map Ticket.number).Nodup ∧ (∀ t ∈ f.tickets, t.number < 256) ∧ f.nextNumber < 256
    ∧ (f.latch = true → f.state ≠ .running) ∧ (f.fill = true → f.pushing = true)

/-- The law of both feeds. -/
def State.feedLaw (s : State) : Prop := ∀ h : Head, (s.feed h).law

/-- The guard law (R47): tickets held by different heads lie at least the guard distance apart. -/
def State.guardLaw (s : State) : Prop :=
  ∀ x ∈ (s.feed .a).tickets, ∀ y ∈ (s.feed .b).tickets, s.issuer.guard ≤ distance x.absX y.absX

/-- The queue law (R193): at most sixteen notices in each queue. -/
def State.queueLaw (s : State) : Prop := ∀ p : PortId, (s.port p).queue.length ≤ Config.queueCapacity

/-- The slots of a map in a state of a kind. -/
def StripMap.slotCount (m : StripMap) (kind : SlotPhase → Bool) : Nat :=
  (m.units.map (fun r => r.slots.countP (fun sl => kind sl.phase))).sum

/-- The law of a map header (R19, R29, R34): the totals are the numbers of slots in each state, the units finished count
is the number of finished units, a DONE unit has nothing unclosed, and a complete map has every unit finished. -/
def StripMap.law (m : StripMap) : Prop :=
  m.totals.opened = m.slotCount (fun ph => ph.code == 0) ∧ m.totals.issued = m.slotCount (fun ph => ph.code == 1)
    ∧ m.totals.first = m.slotCount (fun ph => ph.code == 2) ∧ m.totals.closed = m.slotCount (fun ph => ph.code == 3)
    ∧ m.totals.skipped = m.slotCount (fun ph => ph.code == 4)
    ∧ m.unitsFinished = m.units.countP UnitRec.finished
    ∧ (∀ r ∈ m.units, ∀ o, r.state = .done o → r.allClosed = true)
    ∧ (m.complete = true → m.unitsFinished = m.units.length)

/-- The law of the map, while one exists. -/
def State.mapLaw (s : State) : Prop := ∀ m, s.map = some m → m.law

/-- The timer law (R76): the absence timer of a link runs exactly while the link is PRESENT and one of its channels is
enabled. -/
def State.timerLaw (s : State) : Prop := ∀ l : Link, (s.link l).timer.isSome = ((s.link l).present && s.linkEnabled l)

/-- The law of a Bond Capture (R100, R101): a window capture is present only while WIN is high, the armed ticket and the
ticket a capture is bound to are in the head's list, and while a capture is present the armed ticket is the one it is bound
to, or absent. -/
def BondCapture.law (c : BondCapture) (tickets : List Ticket) : Prop :=
  (c.window.isSome = true → c.win = true) ∧ (∀ a, c.armed = some a → a.ticket ∈ tickets)
    ∧ (∀ w t ph, c.window = some w → w.binding = .bound t ph → t ∈ tickets)
    ∧ (∀ w a, c.window = some w → c.armed = some a → w.binding = .bound a.ticket a.phase)

/-- The law of both Bond Captures. -/
def State.bondLaw (s : State) : Prop := ∀ h : Head, (s.capture h).law (s.feed h).tickets

/-- The law of the DL transmitter (R181, R182): it holds nothing while PNLRDY is inactive, while PNLRDY is active it is IDLE
only with no row dirty, and IDLE it has nothing in its holding byte. -/
def State.screenLaw (s : State) : Prop :=
  (s.screen.pnlrdy = false → s.screen.tx = none ∧ s.screen.holding = none ∧ s.screen.shift = none)
    ∧ (s.screen.pnlrdy = true → s.screen.tx = none → s.screen.lowestDirty = none)
    ∧ (s.screen.tx = none → s.screen.holding = none)

/-- The verdict is GOOD or MARGINAL (R144). -/
def Verdict.pulls (v : Verdict) : Prop := v = .good ∨ v = .marginal

/-- Every slot of the map with a ball and a stitch result holds the worse of their verdicts as its close verdict (R25). -/
def State.closeLaw (s : State) : Prop :=
  ∀ m, s.map = some m → ∀ u ∈ m.units, ∀ sl ∈ u.slots, ∀ ball stitch v c, sl.phase = .closed ball (some stitch) v c →
    v = Verdict.worse ball.verdict stitch.verdict

/-- The law of the Pull Record Store (R144, R147): at most 128 records, distinct ids, at most one TESTING, a pull capture
exactly while one is TESTING, and every record's ball and stitch verdicts GOOD or MARGINAL; with the law of close verdicts
(R25), from which the last follows for the records of a release. -/
def State.storeLaw (s : State) : Prop :=
  s.pull.records.length ≤ Config.storeCapacity ∧ (s.pull.records.map PullRecord.id).Nodup
    ∧ (∀ r ∈ s.pull.records, r.id < 65536) ∧ s.pull.nextId < 65536
    ∧ s.pull.records.countP (fun r => r.state == .testing) = (if s.pull.capture.isSome then 1 else 0)
    ∧ (∀ r ∈ s.pull.records, r.ballVerdict.pulls ∧ r.stitchVerdict.pulls) ∧ s.closeLaw

/-- The serial law (R118): no serial appears twice among the strips in flight and the STOWED slots. -/
def State.serialLaw (s : State) : Prop := s.tracker.serials.Nodup

/-- `n` is the first number from `next` on, wrapping at the modulus, that is not held (R40 for ticket numbers, R147 for record
ids): numbers that are held are passed over. -/
def isNextFree (modulus : Nat) (held : Nat → Prop) (next n : Nat) : Prop :=
  ¬held n ∧ ∃ k, n = (next + k) % modulus ∧ ∀ j, j < k → held ((next + j) % modulus)

/-! ### The form of statements about commands -/

/-- The port takes the bytes clocked into it (R184). -/
def State.hears (s : State) (p : PortId) : Prop := (s.port p).ignoring = false

/-- The port of an atomic command's row. -/
def portOf (i : Instr) : PortId := (i.command?.map Prod.fst).getD .cc

/-- The state at the taking of an atomic command's row: only its port has changed (R187, R188). -/
def State.taking (s : State) (i : Instr) : State :=
  match i.command? with
  | some (p, c) => s.setPort p ((s.port p).atTaking c (paramBytes i))
  | none => s

/-- The row of command `i` goes on to a next state: from the state at its taking, `change` is what it does to the part, then
its response is loaded, and the event ends. -/
def Answers (i : Instr) (s : State) (change : State → State) (r : CmdResult) (detail : Nat) (data : List Byte) : Prop :=
  exec i s = .next (s.finish ((change (s.taking i)).respond (portOf i) r detail data))

/-- The row of command `i` is refused: nothing changes but the port that carries it. -/
def Refuses (i : Instr) (s : State) (r : CmdResult) (detail : Nat) : Prop := Answers i s id r detail []

/-- Some steps one after another, up to the first that does not go on. -/
def runSteps : Nat → State → Host.Outcome State Fault Refusal
  | 0, s => .next s
  | k + 1, s =>
    match step s with
    | .next t => runSteps k t
    | o => o

/-- No two regions share a cell, and each lies on the panel (R169). -/
def State.regionLaw (s : State) : Prop :=
  (∀ i r, s.screen.region? i = some r → 1 ≤ r.width ∧ 1 ≤ r.height ∧ r.left + r.width ≤ Config.columns
    ∧ r.top + r.height ≤ Config.rows)
    ∧ ∀ i j r q, i ≠ j → s.screen.region? i = some r → s.screen.region? j = some q → r.overlaps q = false

end Sys2Proof.Machine
end

