-- ==== Sys2Proof/Certificates/Slice0/Obligations.lean ====
section
/-! DEFINITION. The statements about the model, for the provers. `Answers` and `Refuses` are in Sys2Proof/Safety.lean: what
an atomic command's row does, as an equation on the next state, so that everything it does not name is unchanged. -/

open Sys2Proof Sys2Proof.Machine

/-! ### The queue, the end of an event, RST and the port -/

/-- A step takes the command in front of the queue and leaves the rest waiting; with no command waiting it changes nothing
(the model's choice, log entry 2). -/
def Obligations.StepTakesFrontCommand : Prop :=
  ∀ (s : State),
    (∀ c rest, step { s with pending := c :: rest } = exec c { s with pending := rest })
    ∧ step { s with pending := [] } = .next { s with pending := [] }

/-- The end of an event (R175, R180, R181) changes the screen only; it changes nothing where the event changed neither the
banner, nor the text of an automatic field, nor the dirty rows; and a change of the banner leaves rows 0 and 1 dirty while
the panel is not ready. The screen brought up to date (State.redraw) differs from the screen the event left only in the cells
of AUTO regions whose text changed and in the dirty set, which gains exactly the rows, outside the banner, of cells that
changed, and rows 0 and 1 at a change of the banner (R180); a rendering does the same. Where the event changed the dirty set
and left it non-empty while PNLRDY is active and the transmitter IDLE, its lowest row leaves the set, and the row's 48
displayed cells are captured for the transfer (R181), whose select byte passes into an empty shift byte at once (the model's
choice, log entry 13); IDLE the transmitter has nothing in its holding byte (StepKeepsScreenLaw). In every other case no
transfer starts. Where every AUTO region shows the text that its field had before the event, with regions apart, every AUTO
region shows the text that its field has after it. Rendering a field (R175) gives every cell of the region the text of
its row, left-justified and filled with spaces, in the region's attribute, and changes no other cell. The texts of the fields
(R176 to R178), with numbers in decimal and serials in hexadecimal (R175, R176), and the banner, which is the displayed content
of rows 0 and 1 while it stands (R168, R179). That fields are rendered once at the end of an event is the model's choice (log
entry 12). -/
def Obligations.EventEndAndRendering : Prop :=
  (
    ∀ (old new : State),
      (∃ c : Screen, old.finish new = { new with screen := c })
      ∧ (old.hold.banner = new.hold.banner → (∀ k, old.fieldText k = new.fieldText k) →
          new.screen.dirty = old.screen.dirty → old.finish new = new)
      ∧ (old.hold.banner ≠ new.hold.banner → old.screen.pnlrdy = false → new.screen.pnlrdy = false →
          (old.finish new).screen.dirty[0] = true ∧ (old.finish new).screen.dirty[1] = true)
      ∧ (let shows := fun (c : Screen) (t : State) => ∀ i r k a, c.region? i = some r → r.owner = .auto k a →
           ∀ y x, y < r.height → x < r.width → c.cell (r.top + y) (r.left + x)
             = { ch := (((t.fieldText k)[y]?.getD [])[x]?).getD 0x20, attr := a }
         new.regionLaw → shows new.screen old → shows (old.finish new).screen new))
  ∧
  (
    ∀ (old new : State),
      let b := new.hold.banner
      let c := old.redraw new
      let captured := fun (row : Nat) => (List.range 48).flatMap (fun col =>
        [(c.displayed b row col).ch, (c.displayed b row col).attr.toByte])
      let idle := c.pnlrdy = true ∧ c.tx = none ∧ c.dirty ≠ old.screen.dirty
      (c.regions = new.screen.regions ∧ c.pnlrdy = new.screen.pnlrdy ∧ c.tx = new.screen.tx
        ∧ c.holding = new.screen.holding ∧ c.shift = new.screen.shift)
      ∧ (∀ row col, (∀ i r k a, c.region? i = some r → r.owner = .auto k a → old.fieldText k ≠ new.fieldText k →
            ¬(r.top ≤ row ∧ row < r.top + r.height ∧ r.left ≤ col ∧ col < r.left + r.width)) →
          c.cell row col = new.screen.cell row col)
      ∧ (new.regionLaw → ∀ row : Fin 20, c.dirty[row] = true ↔
          new.screen.dirty[row] = true ∨ (old.hold.banner ≠ b ∧ row.val < 2)
            ∨ ((b = .none ∨ 2 ≤ row.val) ∧ ∃ col, c.cell row.val col ≠ new.screen.cell row.val col))
      ∧ (∀ row : Fin 20, idle → c.holding = none → c.dirty[row] = true → (∀ r : Fin 20, r < row → c.dirty[r] = false) →
          (c.shift = none → old.finish new = { new with screen := { c with
            dirty := c.dirty.setIfInBounds row.val false
            shift := some (b8 (0x80 + row.val))
            holding := (captured row.val)[0]?
            tx := some { row := row.val, rest := (captured row.val).drop 1 } } })
          ∧ (c.shift ≠ none → old.finish new = { new with screen := { c with
            dirty := c.dirty.setIfInBounds row.val false
            holding := some (b8 (0x80 + row.val))
            tx := some { row := row.val, rest := captured row.val } } }))
      ∧ (¬(idle ∧ ∃ row : Fin 20, c.dirty[row] = true) → old.finish new = { new with screen := c }))
  ∧
  (
    ∀ (c : Screen) (b : Banner) (r : Region) (a : Attr) (lines : List (List Byte)),
      r.left + r.width ≤ 48 → r.top + r.height ≤ 20 →
      (∀ y x, y < r.height → x < r.width → (c.render b r a lines).cell (r.top + y) (r.left + x)
        = { ch := ((lines[y]?.getD [])[x]?).getD 0x20, attr := a })
      ∧ (∀ row col, ¬(r.top ≤ row ∧ row < r.top + r.height ∧ r.left ≤ col ∧ col < r.left + r.width) →
          (c.render b r a lines).cell row col = c.cell row col)
      ∧ (∀ row : Fin 20, (c.render b r a lines).dirty[row] = true ↔ c.dirty[row] = true
          ∨ ((b = .none ∨ 2 ≤ row.val) ∧ ∃ col, (c.render b r a lines).cell row.val col ≠ c.cell row.val col))
      ∧ (c.render b r a lines).regions = c.regions ∧ (c.render b r a lines).tx = c.tx
      ∧ (c.render b r a lines).pnlrdy = c.pnlrdy ∧ (c.render b r a lines).holding = c.holding
      ∧ (c.render b r a lines).shift = c.shift)
  ∧
  (
    (∀ n, n < 10 ^ 10 →
      (∀ d ∈ decimal n, 48 ≤ d.toNat ∧ d.toNat ≤ 57) ∧ (decimal n).foldl (fun k d => 10 * k + (d.toNat - 48)) 0 = n
      ∧ (decimal n ≠ []) ∧ ((decimal n).head? = some 48 → decimal n = [48]))
    ∧ ∀ n, (hex8 n).length = 8 ∧ ∀ i, i < 8 → (hex8 n)[i]?
        = some (let d := n / 16 ^ (7 - i) % 16; b8 (if d < 10 then 48 + d else 65 + (d - 10))))
  ∧
  (
    ∀ (s : State),
      let text := fun (x : String) => x.toList.map (fun c => b8 c.toNat)
      (s.tracker.zone = none → s.fieldText .progress = [text "NO STRIP", []])
      ∧ (∀ r, s.tracker.zone = some r → r.binding = .waiting →
          s.fieldText .progress = [text "STRIP " ++ hex8 r.serial.toNat ++ text " WAIT", text "NO PROGRAM"])
      ∧ (∀ r i m q, s.tracker.zone = some r → r.binding = .bound i → s.map = some m → s.program? i = some q →
          s.fieldText .progress
            = [text "STRIP " ++ hex8 r.serial.toNat ++ text " P" ++ decimal i,
               text "DONE " ++ decimal (m.totals.closed + m.totals.skipped) ++ text "/" ++ decimal (q.units * q.wires)
                 ++ text " U " ++ decimal m.unitsFinished ++ text "/" ++ decimal q.units])
      ∧ (∀ h : Head, s.fieldText (match h with | .a => .headA | .b => .headB)
          = [text "HEAD " ++ text (match h with | .a => "A" | .b => "B") ++ text " "
               ++ text (match (s.feed h).state with
                  | .off => "OFF" | .running => "RUN" | .stopped .fail => "STOP FAIL" | .stopped .touch => "STOP TOUCH")
               ++ text " L" ++ decimal (s.feed h).tickets.length,
             match (s.capture h).last with
             | none => text "LAST NONE"
             | some r => text "LAST T" ++ decimal r.number
                 ++ text (match r.phase with | .ball => " B " | .stitch => " S ")
                 ++ text (match r.verdict with
                    | .good => "GOOD" | .marginal => "MARGINAL" | .unjudged => "UNJUDGED" | .fail => "FAIL")])
      ∧ s.fieldText .magazine
          = [text "IN " ++ (match s.tracker.input with
               | none => text "NONE"
               | some tab => decimal (tab.slots.countP (· == InSlot.full)) ++ text "/" ++ decimal tab.slots.length)
               ++ text " POS " ++ text (if s.tracker.feed = none then "-" else "F")
               ++ text (if s.tracker.zone = none then "-" else "Z") ++ text (if s.tracker.pull = none then "-" else "P"),
             text "OUT " ++ (match s.tracker.output with
               | none => text "NONE"
               | some tab => decimal (tab.slots.countP (fun x => match x with | .stowed _ => true | _ => false))
                   ++ text "/" ++ decimal tab.slots.length ++ text " FREE "
                   ++ decimal (tab.slots.countP (· == OutSlot.empty)))]
      ∧ s.fieldText .pull
          = [text "PULL " ++ (if s.pull.period = 0 then text "OFF" else text "P" ++ decimal s.pull.period) ++ text " Q"
               ++ decimal (s.pull.records.countP (fun r => r.state == .pending || r.state == .testing)) ++ text " F"
               ++ decimal (s.pull.records.countP (fun r => r.state != .pending && r.state != .testing))]
      ∧ (∀ row col, row < 2 →
          let shown := s.screen.displayed s.hold.banner row col
          (s.hold.reasons ≠ .empty → shown
            = { ch := ((if row = 0 then
                    text "CELL HELD:" ++ (if s.hold.reasons.operator then text " OPERATOR" else [])
                      ++ (if s.hold.reasons.line then text " LINE" else [])
                      ++ (if s.hold.reasons.pullFail then text " PULL_FAIL" else [])
                      ++ (if s.hold.reasons.restart then text " RESTART" else [])
                  else text "NO NEW TICKETS - RELEASE AND RUN TO RESUME")[col]?).getD 0x20
                attr := { colour := 1, blink := true } })
          ∧ (s.hold.reasons = .empty → s.hold.enable = false → shown
            = { ch := ((if row = 0 then text "READY - RUN TO RESUME" else [])[col]?).getD 0x20
                attr := { colour := 2, blink := false } })
          ∧ (s.hold.reasons = .empty → s.hold.enable = true → shown = s.screen.cell row col))
      ∧ ∀ row col, 2 ≤ row → s.screen.displayed s.hold.banner row col = s.screen.cell row col)

/-- The release of RST, whatever the state before it and the levels of the lines, leaves every block at the values after RST
(R15, R37, R64, R79, R98, R115, R137, R154, R196). That RST is one event, and that the commands in the queue, which stands
outside the part, stay, are the model's choices (log entry 17). -/
def Obligations.RstClearsEveryBlock : Prop :=
  ∀ (s : State) (lines : LineLevels), ∃ t : State, exec (.rst lines) s = .next t
    ∧ (∀ i : Fin 4, t.programs.slots[i] = none) ∧ t.programs.selection = none
    ∧ (∀ i : Fin 16, t.programs.limits[i].loaded = false ∧ t.programs.limits[i].ball = .zero
        ∧ t.programs.limits[i].stitch = .zero ∧ t.programs.limits[i].pullMin = 0)
    ∧ (∀ p : PortId, (t.port p).framing = .idle ∧ (t.port p).previous = .ok ∧ (t.port p).queue = []
        ∧ (t.port p).lost = false ∧ (t.port p).attention = false)
    ∧ t.map = none
    ∧ (∀ h : Head, (t.feed h).state = .off ∧ (t.feed h).state.reasonCode = 0 ∧ (t.feed h).count = 0
        ∧ (t.feed h).traversal = .ascend ∧ (t.feed h).fixedUnit = 0 ∧ (t.feed h).order = .sequential
        ∧ (t.feed h).delivery = .pull ∧ (t.feed h).depth = 1 ∧ (t.feed h).cursor = none ∧ (t.feed h).tickets = []
        ∧ (t.feed h).nextNumber = 0 ∧ (t.feed h).latch = false ∧ t.stopLine h = false ∧ (t.feed h).fill = false
        ∧ (t.feed h).request = none)
    ∧ t.issuer.guard = 8000 ∧ t.issuer.lastServed = .b
    ∧ (∀ c : ChanId, (t.chan c).enabled = false ∧ (t.chan c).d = 1 ∧ (t.chan c).s = 0 ∧ (t.chan c).o = 0
        ∧ (t.chan c).metric = 0 ∧ (t.chan c).sum = 0 ∧ (t.chan c).count = 0 ∧ (t.chan c).run = 0
        ∧ (c ≠ .pf → (t.chan c).t = 8388607 ∧ (t.chan c).n = 255)
        ∧ ∀ x : Int, t.sample c x = t)
    ∧ (∀ h : Head, (t.capture h).armed = none ∧ (t.capture h).window = none ∧ (t.capture h).last = none)
    ∧ (∀ l : Link, (t.link l).timeout = 1020 ∧ (t.link l).timer = none ∧ (t.link l).present = true
        ∧ (t.link l).selection = .none ∧ (t.link l).packing = .single ∧ (t.link l).assembling = []
        ∧ (t.link l).holding = none ∧ (t.link l).atRest = false)
    ∧ t.tracker.input = none ∧ t.tracker.output = none ∧ t.tracker.feed = none ∧ t.tracker.zone = none
    ∧ t.tracker.pull = none ∧ t.tracker.clamp = .none ∧ t.tracker.serials = []
    ∧ t.tracker.readout 2 = List.replicate 30 0
    ∧ t.pull.records = [] ∧ t.pull.capture = none ∧ t.pull.selection = [] ∧ t.pull.period = 0 ∧ t.pull.limit = 1
    ∧ t.pull.units = [] ∧ t.pull.counter = 0 ∧ t.pull.nextId = 0 ∧ t.pull.pickId = 0
    ∧ t.pending = s.pending

/-- The values after RST that follow the levels of the lines: LINE and the clear enable (R166), the level of WIN, which
opens no window (R115), the port that ignores its clock (R184), and the screen, whose first transfer, of row 0, starts if
PNLRDY is active (R183). That RST is one event at its release, and that the select byte of that transfer passes into the empty
shift byte at once, are the model's choices (log entries 17 and 13). -/
def Obligations.RstReadsTheLines : Prop :=
  ∀ (s : State) (lines : LineLevels), ∃ t : State, exec (.rst lines) s = .next t
    ∧ t.hold.reasons = { operator := false, line := lines.holdin, pullFail := false, restart := false }
    ∧ t.hold.enable = false ∧ t.hold.code = 0 ∧ t.hold.holdin = lines.holdin
    ∧ (t.capture .a).win = lines.winA ∧ (t.capture .b).win = lines.winB
    ∧ (t.port .ha).ignoring = lines.selHA ∧ (t.port .hb).ignoring = lines.selHB
    ∧ (t.port .cc).ignoring = lines.selCC ∧ (t.port .mh).ignoring = lines.selMH
    ∧ (∀ h : Head, (t.capture h).win = true →
        exec (.windowClose h) t = .next (t.setCapture h { t.capture h with win := false }))
    ∧ t.screen.pnlrdy = lines.pnlrdy ∧ (∀ i : Fin 8, t.screen.regions[i] = none)
    ∧ (∀ r c, t.screen.cell r c = { ch := 0x20, attr := { colour := 0, blink := false } })
    ∧ (lines.pnlrdy = false → t.screen.dirty = allDirty ∧ t.screen.tx = none ∧ t.screen.holding = none
        ∧ t.screen.shift = none)
    ∧ (lines.pnlrdy = true → t.screen.tx.map Transfer.row = some 0 ∧ t.screen.shift = some 0x80
        ∧ t.screen.dirty = allDirty.set 0 false)

/-- A port refuses a command its role does not accept with ROLE and nothing else (R186, R188); a port that ignores its clock
takes no command (R184). What a row does on a port that ignores its clock is the model's choice (log entry 19). -/
def Obligations.PortTakesItsOwnCommands : Prop :=
  ∀ (i : Instr) (p : PortId) (c : Cmd) (s : State), i.command? = some (p, c) →
    (s.hears p → p.accepts c = false → Refuses i s .role 0)
    ∧ ((s.port p).ignoring = true → exec i s = .next s)

/-- The taking of a command leaves the queue and the lost flag of its port; a command byte ends what the port was doing, and the
previous-result becomes FORMAT where that was an atomic command in PARAMS, PWIRE before its slot byte or inside a group, or
WTXT before its header is complete; the last byte of a command in PARAMS ends nothing. COMMAND_BYTE and UNKNOWN_COMMAND (R187):
the port enters PARAMS or STREAM, IGNORE with ROLE for PWIRE on a port other than CC, or RESPONSE with UNKNOWN. -/
def Obligations.CommandBytesEndAndBegin : Prop :=
  (
    ∀ (q : Port) (c : Cmd) (bs : List Byte),
      (q.atTaking c bs).framing = .idle ∧ (q.atTaking c bs).queue = q.queue ∧ (q.atTaking c bs).lost = q.lost
      ∧ (q.atTaking c bs).unfinished = none ∧ (q.atTaking c bs).ignoring = q.ignoring
      ∧ (∀ received, q.framing = .params c received → received.isPrefixOf bs = true → received.length < bs.length →
          (q.atTaking c bs).previous = q.previous)
      ∧ ((∀ received, q.framing = .params c received → ¬(received.isPrefixOf bs = true ∧ received.length < bs.length)) →
          (q.atTaking c bs).previous
            = match q.framing with
              | .params _ _ => .format
              | .pwireSlot => .format
              | .pwireGroups _ (_ :: _) => .format
              | .wtxtHeader _ => .format
              | _ => q.previous))
  ∧
  (
    ∀ (p : PortId) (s : State), s.hears p →
      (∀ c : Cmd, c.takenAtOnce = false → c ≠ .wtxt → c ≠ .pwire →
        exec (.commandByte p c) s = .next (s.setPort p { (s.port p).commandByte with framing := .params c [] }))
      ∧ exec (.commandByte p .wtxt) s = .next (s.setPort p { (s.port p).commandByte with framing := .wtxtHeader [] })
      ∧ (p = .cc →
        exec (.commandByte p .pwire) s = .next (s.setPort p { (s.port p).commandByte with framing := .pwireSlot }))
      ∧ (p ≠ .cc → exec (.commandByte p .pwire) s
          = .next (s.setPort p { (s.port p).commandByte with previous := .role, framing := .ignore }))
      ∧ (∀ v : Byte, Cmd.ofCode v = none → exec (.unknownCommand p v) s
          = .next (s.setPort p { (s.port p).commandByte with framing := .response [0x01, 0x00] })))

/-- READOUT_BYTE (R189): the next unread response byte is shifted out and consumed, FFh while the port is WAITING, else 00h;
SELECT_RELEASE (R184, R185): the bits of an unfinished byte are discarded, and the port takes its next clock. Clock edges
(R184): eight of them, with the bits of a byte from the most significant on, do what the byte's row does, a parameter byte
where mode is high at the eighth and a command byte where it is low, whatever mode is before; fewer change only the byte in
progress and data out, whose byte is fixed at the first and goes out most significant bit first (R189), and a release of
select then does what it does without them (R185). A byte at whose first clock the port was WAITING and which completes after
its response is loaded consumes nothing with mode high, and is a command byte with mode low, data out as fixed (R189). A port that ignores its clock takes no edge. Which state of the
port makes READOUT_BYTE a readout, and that rows stand for whole bytes, are the model's choices (log entries 27 and 4). -/
def Obligations.ReadoutAndSelect : Prop :=
  ∀ (p : PortId) (s : State),
    (∀ d b rest, s.hears p → (s.port p).framing = .response (b :: rest) →
      exec (.readoutByte p d) s
        = .next (s.setPort p { s.port p with framing := .response rest, dataOut := b, unfinished := none }))
    ∧ (∀ d, s.hears p → (s.port p).framing = .response [] ∨ (s.port p).framing = .idle ∨ (s.port p).framing = .ignore →
      exec (.readoutByte p d) s = .next (s.setPort p { s.port p with dataOut := 0x00, unfinished := none }))
    ∧ (∀ d, s.hears p → (s.port p).framing = .waiting →
      exec (.readoutByte p d) s = .next (s.setPort p { s.port p with dataOut := 0xFF, unfinished := none }))
    ∧ (let out : Byte := if (s.port p).unfinished ≠ none then (s.port p).dataOut else match (s.port p).framing with
         | .response (b :: _) => b
         | .waiting => 0xFF
         | _ => 0x00
       let edges := fun (n : Nat) (d : Byte) (mode : Nat → Bool) =>
         (List.range n).foldl (fun t k => t.clockEdge p (d.getLsbD (7 - k)) (mode k)) s
       let begun := fun (n : Nat) (d : Byte) => ({ s.port p with
         dataOut := out
         unfinished := some {
           bits := (List.range n).map (fun k => d.getLsbD (7 - k))
           reads := match (s.port p).framing with | .response (_ :: _) => true | _ => false } } : Port)
       (∀ bits, bits ≤ 7 →
         exec (.selectRelease p bits) s = .next (s.setPort p { s.port p with
           unfinished := none
           ignoring := false
           dataOut := if bits = 0 ∨ (s.port p).ignoring = true then (s.port p).dataOut else out }))
       ∧ (∀ (q : Port) (k : Fin 8), q.dataOutLevel k = q.dataOut.getLsbD (7 - k.val))
       ∧ (∀ dataIn mode, (s.port p).ignoring = true → s.clockEdge p dataIn mode = s)
       ∧ (s.hears p → (s.port p).unfinished = none → ∀ (d : Byte) (mode : Nat → Bool),
         (∀ n, 1 ≤ n → n ≤ 7 → edges n d mode = s.setPort p (begun n d)
           ∧ exec (.selectRelease p n) (edges n d mode) = exec (.selectRelease p n) s)
         ∧ (mode 7 = true → exec (.readoutByte p d) s = .next (edges 8 d mode))
         ∧ (mode 7 = false → Cmd.ofCode d = none → exec (.unknownCommand p d) s = .next (edges 8 d mode))
         ∧ (∀ c, mode 7 = false → Cmd.ofCode d = some c → c.takenAtOnce = false →
             exec (.commandByte p c) s = .next (edges 8 d mode))
         ∧ (∀ c i, mode 7 = false → Cmd.ofCode d = some c → c.takenAtOnce = true → i.command? = some (p, c) →
             exec i s = .next (edges 8 d mode)))
       ∧ (∀ first dataIn b rest, s.hears p → (s.port p).unfinished = some { bits := first, reads := false } →
           first.length = 7 → (s.port p).framing = .response (b :: rest) →
           s.clockEdge p dataIn true = s.setPort p { s.port p with unfinished := none }
           ∧ ∀ v : Byte, (∀ k, k < 8 → (first ++ [dataIn])[k]? = some (v.getLsbD (7 - k))) →
             ∀ i, (Cmd.ofCode v = none ∧ i = .unknownCommand p v)
                 ∨ (∃ c, Cmd.ofCode v = some c ∧ c.takenAtOnce = false ∧ i = .commandByte p c)
                 ∨ (∃ c, Cmd.ofCode v = some c ∧ c.takenAtOnce = true ∧ i.command? = some (p, c)) →
               ∃ t : State, exec i s = .next t
                 ∧ s.clockEdge p dataIn false = t.setPort p { t.port p with dataOut := (s.port p).dataOut }))

/-- The row of an atomic command with parameter bytes is the command byte and those bytes one by one (R187, R188): the queue
with the command byte and the bytes, taken step by step, leaves what the row leaves. On a port that is collecting the command
already, the row is the bytes still to come (the model's choice, log entry 3). -/
def Obligations.RowIsItsBytes : Prop :=
  ∀ (i : Instr) (p : PortId) (c : Cmd) (s : State) (rest : List Instr), i.command? = some (p, c) → c.paramCount ≠ 0 →
    s.hears p →
    let bytes := paramBytes i
    let queued := fun (l : List Instr) => ({ s with pending := l ++ rest } : State)
    (∀ received, (s.port p).framing = .params c received → received.isPrefixOf bytes = true →
      received.length < bytes.length →
      runSteps (bytes.length - received.length) (queued ((bytes.drop received.length).map (Instr.readoutByte p)))
        = exec i (queued []))
    ∧ ((∀ received, (s.port p).framing = .params c received →
        ¬(received.isPrefixOf bytes = true ∧ received.length < bytes.length)) →
      runSteps (1 + bytes.length) (queued (.commandByte p c :: bytes.map (Instr.readoutByte p))) = exec i (queued []))

/-- STAT (R192). -/
def Obligations.StatReportsThePort : Prop :=
  ∀ (p : PortId) (s : State), s.hears p →
    Answers (.stat p) s (fun t => t.setPort p { t.port p with lost := false }) .ok 0
      [match p with | .ha => 0 | .hb => 1 | .cc => 2 | .mh => 3,
       ((s.taking (.stat p)).port p).previous.byte,
       b8 (s.port p).queue.length, if (s.port p).lost then 1 else 0,
       b8 s.hold.reasons.code, if s.hold.enable then 1 else 0,
       match p with | .ha => b8 (s.feed .a).state.code | .hb => b8 (s.feed .b).state.code | _ => 0,
       match p with | .ha => b8 (s.feed .a).tickets.length | .hb => b8 (s.feed .b).tickets.length | _ => 0]
    ∧ ∀ n : Notice, 16 ≤ (s.port p).queue.length → ((s.post p n).port p).lost = true

/-- NOTE (R194). -/
def Obligations.NoteRemovesTheOldest : Prop :=
  ∀ (p : PortId) (k : Byte) (s : State), s.hears p →
    (k.toNat < 1 ∨ 16 < k.toNat → Refuses (.note p k) s .range 0)
    ∧ (1 ≤ k.toNat → k.toNat ≤ 16 →
      Answers (.note p k) s (fun t => t.setPort p { t.port p with queue := (t.port p).queue.drop k.toNat }) .ok
        (min k.toNat (s.port p).queue.length)
        (((s.port p).queue.take k.toNat).flatMap Notice.bytes
          ++ List.replicate (8 * (k.toNat - (s.port p).queue.length)) 0))
    ∧ (∀ n : Notice, n.bytes.length = 8 ∧ n.bytes.head? ≠ some 0)

/-- The posting of a notice (R193): it joins a queue below sixteen, and sets the lost flag of a full one; a notice to all
ports is placed in each queue apart; attention follows the queue. -/
def Obligations.PostingFillsTheQueue : Prop :=
  ∀ (s : State) (n : Notice),
    (∀ p : PortId, (s.port p).queue.length < 16 →
      s.post p n = s.setPort p { s.port p with queue := (s.port p).queue ++ [n] })
    ∧ (∀ p : PortId, 16 ≤ (s.port p).queue.length → s.post p n = s.setPort p { s.port p with lost := true })
    ∧ s.postAll n = (((s.post .ha n).post .hb n).post .cc n).post .mh n
    ∧ (∀ p : PortId, (s.port p).attention = true ↔ (s.port p).queue ≠ [])

/-- RESTART (R16, R37, R65, R99, R113, R116, R138, R155, R167, R195): the cell's work is discarded, each queue holds the RESTART
notice with what it lost, and the reason RESTART is added, which HoldAndRelease spells out (State.addReason). -/
def Obligations.RestartDiscardsTheWork : Prop :=
  ∀ (s : State), s.hears .cc → ∃ t : State,
    Answers (.restart .cc) s
        (fun u =>
          let emptied := fun (q : Port) => { q with queue := [.restart q.queue.length q.lost], lost := false }
          { t with ports := u.ports.map emptied }.addReason 7 .restart) .ok 0 []
    ∧ t.map = none ∧ t.pull.selection = []
    ∧ (∀ i, t.program? i = if (s.map.map StripMap.program) = some i then (s.program? i).map (fun (q : Program) => { q with state := .ready })
        else s.program? i)
    ∧ t.programs.selection = s.programs.selection ∧ t.programs.limits = s.programs.limits
    ∧ (∀ h : Head, t.feed h = { s.feed h with state := .off, fill := false, tickets := [], cursor := none })
    ∧ t.issuer.guard = s.issuer.guard ∧ t.issuer.lastServed = s.issuer.lastServed
    ∧ (∀ h : Head, t.capture h
        = { s.capture h with armed := none, window := (s.capture h).window.map (fun _ => Window.silenced) })
    ∧ t.tracker = { s.tracker with feed := none, zone := none, pull := none, clamp := .none }
    ∧ t.pull.records = s.pull.records.map (fun r =>
        if r.state = .pending ∨ r.state = .testing then { r with state := .void } else r)
    ∧ t.pull.capture = none ∧ t.pull.period = s.pull.period ∧ t.pull.limit = s.pull.limit ∧ t.pull.units = s.pull.units
    ∧ t.pull.counter = s.pull.counter ∧ t.pull.nextId = s.pull.nextId
    ∧ (∀ c : ChanId, t.chan c = if s.captureOpen c then { s.chan c with sum := 0, count := 0 } else s.chan c)
    ∧ t.links = s.links ∧ t.hold = s.hold ∧ t.screen = s.screen ∧ t.pending = s.pending

/-! ### Programs, limit sets and the map -/

/-- PLOAD (R4, R5). The detail 0 of OK is the model's choice (log entry 30). -/
def Obligations.PloadLoadsTheHeader : Prop :=
  ∀ (slot : Byte) (label : W16) (units : Byte) (pitch wires : W16) (tiers flags : Byte) (s : State), s.hears .cc →
    (3 < slot.toNat → Refuses (.pload .cc slot label units pitch wires tiers flags) s .range 0)
    ∧ (slot.toNat ≤ 3 → (s.program? slot.toNat).map Program.state = some .inUse →
        Refuses (.pload .cc slot label units pitch wires tiers flags) s .inUse 0)
    ∧ (slot.toNat ≤ 3 → (s.program? slot.toNat).map Program.state ≠ some .inUse →
        ¬(1 ≤ units.toNat ∧ units.toNat ≤ 64 ∧ 1 ≤ pitch.toNat ∧ 1 ≤ wires.toNat ∧ wires.toNat ≤ 384
          ∧ units.toNat * wires.toNat ≤ 8192 ∧ 1 ≤ tiers.toNat ∧ tiers.toNat ≤ 4 ∧ flags.toNat ≤ 1) →
        Refuses (.pload .cc slot label units pitch wires tiers flags) s .range 0)
    ∧ (slot.toNat ≤ 3 → (s.program? slot.toNat).map Program.state ≠ some .inUse →
        1 ≤ units.toNat → units.toNat ≤ 64 → 1 ≤ pitch.toNat → 1 ≤ wires.toNat → wires.toNat ≤ 384 →
        units.toNat * wires.toNat ≤ 8192 → 1 ≤ tiers.toNat → tiers.toNat ≤ 4 → flags.toNat ≤ 1 →
        Answers (.pload .cc slot label units pitch wires tiers flags) s
          (fun t => { t with programs := { t.programs with
            slots := t.programs.slots.setIfInBounds slot.toNat (some
              { state := .loading, label := label, units := units.toNat, pitch := pitch.toNat, wires := wires.toNat,
                tiers := tiers.toNat, exportRequired := decide (flags.toNat = 1), table := [] })
            selection := if t.programs.selection = some slot.toNat then none else t.programs.selection } }) .ok 0 [])

/-- PFREE (R11, with R5). The detail 0 of OK is the model's choice (log entry 30). -/
def Obligations.PfreeEmptiesTheSlot : Prop :=
  ∀ (slot : Byte) (s : State), s.hears .cc →
    (3 < slot.toNat → Refuses (.pfree .cc slot) s .range 0)
    ∧ (slot.toNat ≤ 3 → (s.program? slot.toNat).map Program.state = some .inUse → Refuses (.pfree .cc slot) s .inUse 0)
    ∧ (slot.toNat ≤ 3 → (s.program? slot.toNat).map Program.state ≠ some .inUse →
        Answers (.pfree .cc slot) s
          (fun t => { t with programs := { t.programs with
            slots := t.programs.slots.setIfInBounds slot.toNat none
            selection := if t.programs.selection = some slot.toNat then none else t.programs.selection } }) .ok 0
          ((match (s.program? slot.toNat).map Program.state with
            | none => 0 | some .loading => 1 | some .ready => 2 | some .inUse => 3)
           :: be16 (((s.program? slot.toNat).map (fun (q : Program) => q.label.toNat)).getD 0)))

/-- PSEL (R9, R10); the map build is in `MapBuildLaysOutTheMap`. That the data of a PSEL that binds a strip show the slot
before the binding is the model's choice (log entry 23). -/
def Obligations.PselSelectsAndBinds : Prop :=
  ∀ (slot : Byte) (s : State), s.hears .cc →
    (4 ≤ slot.toNat → slot.toNat ≤ 254 → Refuses (.psel .cc slot) s .range 0)
    ∧ (slot.toNat = 255 → Answers (.psel .cc slot) s
        (fun t => { t with programs := { t.programs with selection := none } }) .ok 0 [])
    ∧ (slot.toNat ≤ 3 → s.program? slot.toNat = none → Answers (.psel .cc slot) s id .state 0 [0, 0, 0, 0, 0])
    ∧ (∀ prog, slot.toNat ≤ 3 → s.program? slot.toNat = some prog → prog.state = .loading →
        Answers (.psel .cc slot) s id .state 0 ([1] ++ be16 prog.label.toNat ++ be16 prog.table.length))
    ∧ (∀ prog, slot.toNat ≤ 3 → s.program? slot.toNat = some prog → prog.state ≠ .loading →
        (∀ r, s.tracker.zone = some r → r.binding ≠ .waiting) →
        Answers (.psel .cc slot) s (fun t => { t with programs := { t.programs with selection := some slot.toNat } })
          .ok 0 ([if prog.state = .ready then 2 else 3] ++ be16 prog.label.toNat ++ be16 prog.table.length))
    ∧ (∀ prog r, slot.toNat ≤ 3 → s.program? slot.toNat = some prog → prog.state ≠ .loading →
        s.tracker.zone = some r → r.binding = .waiting →
        Answers (.psel .cc slot) s
          (fun t => { t with programs := { t.programs with selection := some slot.toNat } }.buildMap slot.toNat prog r)
          .ok 1 ([if prog.state = .ready then 2 else 3] ++ be16 prog.label.toNat ++ be16 prog.table.length))

/-- LIMSET (R13): all seventeen values and the loaded flag, or RANGE and nothing. The detail 0 of OK is the model's choice (log
entry 30). -/
def Obligations.LimsetReplacesTheSet : Prop :=
  ∀ (index : Byte) (ball stitch : PhaseWords) (pullMin : W16) (s : State), s.hears .cc →
    let ok := fun (w : PhaseWords) =>
      w.defLo.toNat ≤ w.defHi.toNat ∧ w.usiLo.toNat ≤ w.usiHi.toNat ∧ w.durMin.toNat ≤ w.durMax.toNat
        ∧ w.durMax.toNat ≤ 4095
    let fields := fun (w : PhaseWords) =>
      ({ defLo := w.defLo.toNat, defHi := w.defHi.toNat, mDef := w.mDef.toNat, usiLo := w.usiLo.toNat,
         usiHi := w.usiHi.toNat, mUsi := w.mUsi.toNat, durMin := w.durMin.toNat, durMax := w.durMax.toNat } : PhaseLimits)
    (¬(index.toNat ≤ 15 ∧ ok ball ∧ ok stitch) → Refuses (.limset .cc index ball stitch pullMin) s .range 0)
    ∧ (index.toNat ≤ 15 → ok ball → ok stitch →
        Answers (.limset .cc index ball stitch pullMin) s
          (fun t => { t with programs := { t.programs with
            limits := t.programs.limits.setIfInBounds index.toNat
              { loaded := true, ball := fields ball, stitch := fields stitch, pullMin := pullMin.toNat } } }) .ok 0 [])

/-- PWIRE and its groups (R6 to R8): the slot byte on CC, and a group whose last byte completes. Which bytes a group's row
delivers, and the byte data out is left with, are the model's choice (log entries 3 and 29). -/
def Obligations.PwireTakesGroups : Prop :=
  ∀ (s : State), s.hears .cc →
    (∀ slot : Byte, exec (.pwire .cc slot) s = .next (s.setPort .cc
      { s.port .cc with
        dataOut := 0
        unfinished := none
        previous := if 3 < slot.toNat then .range else if s.program? slot.toNat = none then .state else .ok
        framing := if 3 < slot.toNat ∨ s.program? slot.toNat = none then .ignore else .pwireGroups slot.toNat [] }))
    ∧ (∀ (slot : Nat) (received : List Byte) (tier : Byte) (x : W16) (ls prof flags : Byte) (prog : Program),
        (s.port .cc).framing = .pwireGroups slot received →
        received.isPrefixOf (paramBytes (.pwireGroup .cc tier x ls prof flags)) = true → received.length < 6 →
        s.program? slot = some prog →
        let stop := fun (r : CmdResult) =>
          s.setPort .cc { s.port .cc with dataOut := 0, unfinished := none, previous := r, framing := .ignore }
        let ok := tier.toNat < prog.tiers ∧ ls.toNat ≤ 15 ∧ prof.toNat ≤ 63
        (¬ok → exec (.pwireGroup .cc tier x ls prof flags) s = .next (stop .range))
        ∧ (ok → prog.wires ≤ prog.table.length → exec (.pwireGroup .cc tier x ls prof flags) s = .next (stop .full))
        ∧ (ok → prog.table.length < prog.wires →
            exec (.pwireGroup .cc tier x ls prof flags) s = .next (s.finish
              ((s.setPort .cc { s.port .cc with dataOut := 0, unfinished := none, framing := .pwireGroups slot [] }).setProgram slot
                (some { prog with
                  table := prog.table
                    ++ [{ tier := tier.toNat, x := x.toNat, limitSet := ls.toNat, profile := prof.toNat,
                          pullEligible := flags.getLsbD 0 }]
                  state := if prog.table.length + 1 = prog.wires then .ready else prog.state })))))

/-- A map build (R18, R31, R63, R126, R141, R142): the units whose flag is set in the skip mask SKIPPED with all their slots,
the other units ACTIVE with their slots OPEN and with one unclosed count for each tier; the strip sampled when its turn has
come, and then the first K pull-eligible wires of the listed units that are not skipped marked and in the selection list; the
map complete, with MAP_COMPLETE, if every unit was skipped; the strip BOUND, the program IN_USE, the cursors absent, the build
a trigger. The wire table of the slot bound holds W entries (R1), which matters for a skipped unit. -/
def Obligations.MapBuildLaysOutTheMap : Prop :=
  ∀ (s : State) (slot : Nat) (prog : Program) (r : StripRecord),
    let flagged := fun (u : Nat) => match r.skipMask with
      | some mask => (mask.toList.getD (u / 8) 0).getLsbD (u % 8)
      | none => false
    let skipped := (List.range prog.units).countP flagged
    let sampled := decide (s.pull.period ≠ 0 ∧ s.pull.counter + 1 = s.pull.period)
    let eligible := fun (w : Nat) => ((prog.table[w]?).map WireEntry.pullEligible).getD false
    let marks : List SlotId :=
      if sampled then
        ((s.pull.units.filter (fun u => decide (u < prog.units) && !flagged u)).flatMap (fun u =>
          ((List.range prog.wires).filter eligible).map (fun w => ⟨u, w⟩))).take s.pull.limit
      else []
    let t := s.buildMap slot prog r
    (∀ u, u < prog.units → flagged u = false) ∨ prog.table.length = prog.wires →
    t.map = some
        { serial := r.serial, program := slot, exportTaken := false, complete := decide (skipped = prog.units),
          totals := { opened := (prog.units - skipped) * prog.wires, issued := 0, first := 0, closed := 0,
                      skipped := skipped * prog.wires },
          unitsFinished := skipped,
          units := (List.range prog.units).map (fun u =>
            { state := if flagged u then .skipped else .active
              unclosed := [0, 1, 2, 3].map (fun tier =>
                if flagged u = false ∧ tier < prog.tiers then prog.table.countP (fun e => e.tier == tier) else 0)
              good := 0, marginal := 0, unjudged := 0, fail := 0
              skipped := if flagged u then prog.wires else 0
              slots := (List.range prog.wires).map (fun w =>
                { phase := if flagged u then .skipped else .opened, pullSelected := decide ((⟨u, w⟩ : SlotId) ∈ marks) }) }) }
    ∧ t.tracker = { s.tracker with zone := some { r with binding := .bound slot, sampled := some sampled } }
    ∧ t.programs = { s.programs with slots := s.programs.slots.setIfInBounds slot (some { prog with state := .inUse }) }
    ∧ (∀ h : Head, t.feed h = { s.feed h with
        cursor := none
        fill := (s.feed h).fill || (decide ((s.feed h).state = .running) && decide ((s.feed h).delivery = .push)) })
    ∧ t.pull = { s.pull with
        counter := if s.pull.period = 0 ∨ s.pull.counter + 1 = s.pull.period then 0 else s.pull.counter + 1
        selection := marks.map (fun i => { unit := i.unit, wire := i.wire, head := none }) }
    ∧ t.ports = (if skipped = prog.units then s.postAll (.mapComplete r.serial 0 0) else s).ports
    ∧ t.links = s.links ∧ t.channels = s.channels ∧ t.bond = s.bond ∧ t.hold = s.hold
    ∧ t.screen = s.screen ∧ t.issuer.guard = s.issuer.guard ∧ t.issuer.lastServed = s.issuer.lastServed

/-- SKIPU, MAPRD and MAPTAKE (R32, R35, R36): the refusals; the unit skipped according to its state (R30), which clears the
export-taken flag where it changes the state, is tested for completion, and is a trigger where it turned a slot; the unit and
slot records of MAPRD byte by byte (section 11.8); the export-taken flag set. The detail 0 of the OK of SKIPU and of MAPTAKE,
and 0 in the bits of MAPRD's bytes that section 11.8 does not name, are the model's choices (log entries 30 and 37). -/
def Obligations.MapCommandsAnswer : Prop :=
  ∀ (s : State), s.hears .cc →
    (∀ (u f n : Byte), s.map = none → Refuses (.skipu .cc u) s .state 1 ∧ Refuses (.maprd .cc f n) s .state 1
      ∧ Refuses (.maptake .cc) s .state 1)
    ∧ (∀ m, s.map = some m →
      (∀ u : Byte, m.units[u.toNat]? = none → Refuses (.skipu .cc u) s .range 0)
      ∧ (∀ (u : Byte) (r : UnitRec), m.units[u.toNat]? = some r →
          let isOpen := fun (sl : WireSlot) => sl.phase == .opened
          let turned := if r.state = .active then r.slots.countP isOpen else 0
          let r' : UnitRec := match r.state with
            | .active =>
              { r with
                state := .skipped
                unclosed := r.unclosed.mapIdx (fun tier k =>
                  k - (r.slots.zip (s.boundProgram m).table).countP (fun x => isOpen x.1 && x.2.tier == tier))
                skipped := r.skipped + r.slots.countP isOpen
                slots := r.slots.map (fun sl => if isOpen sl then { sl with phase := .skipped } else sl) }
            | .done _ => { r with state := .skipped }
            | .skipped => r
          let finished := fun (x : UnitRec) => match x.state with
            | .done _ => true
            | .skipped => x.unclosed.all (· == 0)
            | .active => false
          Answers (.skipu .cc u) s
            (fun t =>
              let m' : StripMap := { m with
                units := m.units.set u.toNat r'
                unitsFinished := m.unitsFinished + (if !finished r && finished r' then 1 else 0)
                totals := { m.totals with opened := m.totals.opened - turned, skipped := m.totals.skipped + turned }
                exportTaken := m.exportTaken && r.state == UnitState.skipped }
              let t1 := { t with map := some m' }.checkComplete
              if 0 < turned then t1.trigger else t1) .ok 0
            ((match r.state with | .active => 0 | .skipped => 1 | .done _ => 2) :: be16 turned
              ++ be16 (r.slots.countP (fun sl => sl.phase.code == 1 || sl.phase.code == 2))))
      ∧ (∀ f n : Byte, n.toNat = 0 ∨ m.units.length < f.toNat + n.toNat → Refuses (.maprd .cc f n) s .range 0)
      ∧ (∀ f n : Byte, 0 < n.toNat → f.toNat + n.toNat ≤ m.units.length →
          let verdict := fun (v : Verdict) => match v with | .good => 0 | .marginal => 1 | .unjudged => 2 | .fail => 3
          let cause := fun (c : Cause) => match c with
            | .none => 0 | .nonstick => 1 | .overcrush => 2 | .usAbnormal => 3 | .time => 4 | .noLimits => 5
            | .abandoned => 6 | .noData => 8 | .link => 9 | .disabled => 10
          let judged := fun (v : Verdict) (c : Cause) => b8 (cause c + 16 * verdict v)
          let head := fun (h : Head) => match h with | .a => 0 | .b => 1
          let unitBytes := fun (x : UnitRec) (u : Nat) =>
            [b8 u, match x.state with
              | .active => 0
              | .skipped => b8 (1 + 4 + 8 * 3)
              | .done o => b8 (2 + 4 + 8 * (match o with | .good => 0 | .suspect => 1 | .reject => 2 | .skipped => 3))]
              ++ be16 x.good ++ be16 x.marginal ++ be16 x.unjudged ++ be16 x.fail ++ be16 x.skipped
          let slotBytes := fun (x : WireSlot) (u w : Nat) =>
            let selected := if x.pullSelected then 16 else 0
            [b8 u] ++ be16 w ++ (match x.phase with
              | .opened => [b8 selected] ++ List.replicate 16 0
              | .issued h k => [b8 (1 + 8 * head h + selected), b8 k] ++ List.replicate 15 0
              | .first h k ball =>
                [b8 (2 + 8 * head h + selected + 32), b8 k, judged ball.verdict ball.cause, 0, 0] ++ be16 ball.DEF
                  ++ [0, 0] ++ be16 ball.USI ++ [0, 0] ++ be16 ball.DUR ++ [0, 0]
              | .closed ball none v c =>
                [b8 (3 + selected + 32 + 128), 0, judged ball.verdict ball.cause, 0, judged v c] ++ be16 ball.DEF
                  ++ [0, 0] ++ be16 ball.USI ++ [0, 0] ++ be16 ball.DUR ++ [0, 0]
              | .closed ball (some stitch) v c =>
                [b8 (3 + selected + 32 + 64 + 128), 0, judged ball.verdict ball.cause, judged stitch.verdict stitch.cause,
                    judged v c]
                  ++ be16 ball.DEF ++ be16 stitch.DEF ++ be16 ball.USI ++ be16 stitch.USI ++ be16 ball.DUR
                  ++ be16 stitch.DUR
              | .skipped => [b8 (4 + selected)] ++ List.replicate 16 0)
          let numbered := ((m.units.drop f.toNat).take n.toNat).zipIdx f.toNat
          Answers (.maprd .cc f n) s id .ok (if m.complete then 1 else 0)
            (numbered.flatMap (fun x => unitBytes x.1 x.2)
              ++ numbered.flatMap (fun x => x.1.slots.zipIdx.flatMap (fun y => slotBytes y.1 x.2 y.2))))
      ∧ (m.complete = false → Refuses (.maptake .cc) s .state 2)
      ∧ (m.complete = true →
          Answers (.maptake .cc) s (fun t => { t with map := some { m with exportTaken := true } }) .ok 0
            (be32 m.serial.toNat ++ [b8 (m.outcomes .good), b8 (m.outcomes .suspect), b8 (m.outcomes .reject),
              b8 (m.outcomes .skipped)])))

/-- The slot transitions (R22 to R26): each request moves a slot from the state the manual gives, with totals, counts and the
unit's state; a request on a slot in another state, or held under another head or number, changes nothing. A close takes the
worse of the ball and stitch verdicts (R25), brings the unclosed count of its tier down and the verdict's count up (R27), and
makes an ACTIVE unit with nothing unclosed DONE with its outcome (R29), which finishes it, as the last close of a SKIPPED unit
does (R19). The completion of the map (R34) and the grant of a requested clamp (R135), which the events that may bring them
about test: MAP_COMPLETE to all ports at the event that finishes the last unit, CLAMP_GRANTED to MH at the event that brings
the wait count to 0, and else nothing. The serial 0 of a CLAMP_GRANTED with no strip at ZONE is the model's choice (log entry
15). -/
def Obligations.SlotTransitionsAndCompletion : Prop :=
  (
    ∀ (m : StripMap) (u w : Nat) (r : UnitRec) (sl : WireSlot) (h : Head) (n tier : Nat) (x ball : BondResult),
      m.units[u]? = some r → r.slots[w]? = some sl →
      let put := fun (ph : SlotPhase) => { r with slots := r.slots.set w { sl with phase := ph } }
      let finished := fun (q : UnitRec) => match q.state with
        | .done _ => true
        | .skipped => q.unclosed.all (· == 0)
        | .active => false
      let closed := fun (ph : SlotPhase) (v : Verdict) =>
        let q : UnitRec := { put ph with
          unclosed := r.unclosed.modify tier (· - 1)
          good := if v = .good then r.good + 1 else r.good
          marginal := if v = .marginal then r.marginal + 1 else r.marginal
          unjudged := if v = .unjudged then r.unjudged + 1 else r.unjudged
          fail := if v = .fail then r.fail + 1 else r.fail }
        if r.state = .active ∧ q.unclosed.all (· == 0) = true then
          { q with state := .done (if 0 < q.fail then .reject else if 0 < q.unjudged then .suspect else .good) }
        else q
      (sl.phase = .opened → m.request u w (requestIssue h n)
        = { m with units := m.units.set u (put (.issued h n))
                   totals := { m.totals with opened := m.totals.opened - 1, issued := m.totals.issued + 1 } })
      ∧ (sl.phase ≠ .opened → m.request u w (requestIssue h n) = m)
      ∧ (sl.phase = .issued h n → m.request u w (requestBall h n x)
        = { m with units := m.units.set u (put (.first h n x))
                   totals := { m.totals with issued := m.totals.issued - 1, first := m.totals.first + 1 } })
      ∧ (sl.phase ≠ .issued h n → m.request u w (requestBall h n x) = m)
      ∧ (sl.phase = .first h n ball →
          let either := fun (v : Verdict) => ball.verdict = v ∨ x.verdict = v
          let v : Verdict :=
            if either .fail then .fail else if either .unjudged then .unjudged
            else if either .marginal then .marginal else .good
          let cause := if v = .fail then (if ball.verdict = .fail then ball.cause else x.cause) else .none
          let r' := closed (.closed ball (some x) v cause) v
          m.request u w (requestStitch h n tier x)
            = { m with units := m.units.set u r'
                       unitsFinished := m.unitsFinished + (if !finished r && finished r' then 1 else 0)
                       totals := { m.totals with first := m.totals.first - 1, closed := m.totals.closed + 1 } })
      ∧ ((∀ b, sl.phase ≠ .first h n b) → m.request u w (requestStitch h n tier x) = m)
      ∧ (sl.phase = .issued h n → r.state ≠ .skipped → m.request u w (requestRelease h n tier)
        = { m with units := m.units.set u (put .opened)
                   totals := { m.totals with issued := m.totals.issued - 1, opened := m.totals.opened + 1 } })
      ∧ (sl.phase = .issued h n → r.state = .skipped →
          let r' := { put .skipped with unclosed := r.unclosed.modify tier (· - 1), skipped := r.skipped + 1 }
          m.request u w (requestRelease h n tier)
            = { m with units := m.units.set u r'
                       unitsFinished := m.unitsFinished + (if !finished r && finished r' then 1 else 0)
                       totals := { m.totals with issued := m.totals.issued - 1, skipped := m.totals.skipped + 1 } })
      ∧ (sl.phase = .first h n ball →
          let r' := closed (.closed ball none .fail .abandoned) .fail
          m.request u w (requestRelease h n tier)
            = { m with units := m.units.set u r'
                       unitsFinished := m.unitsFinished + (if !finished r && finished r' then 1 else 0)
                       totals := { m.totals with first := m.totals.first - 1, closed := m.totals.closed + 1 } })
      ∧ (sl.phase ≠ .issued h n → (∀ b, sl.phase ≠ .first h n b) → m.request u w (requestRelease h n tier) = m))
  ∧
  (
    ∀ (s : State),
      (∀ m, s.map = some m → m.complete = false → m.unitsFinished = m.units.length →
        s.checkComplete = { s with map := some { m with complete := true } }.postAll
          (.mapComplete m.serial (m.units.countP (fun (r : UnitRec) => r.outcome? == some UnitOutcome.reject))
            (m.units.countP (fun (r : UnitRec) => r.outcome? == some UnitOutcome.suspect))))
      ∧ ((∀ m, s.map = some m → m.complete = true ∨ m.unitsFinished ≠ m.units.length) → s.checkComplete = s)
      ∧ (s.tracker.clamp = .requested → s.firstCount + s.openBalls = 0 →
        s.checkClamp = { s with tracker := { s.tracker with clamp := .granted } }.post .mh
          (.clampGranted ((s.tracker.zone.map StripRecord.serial).getD 0)))
      ∧ (s.tracker.clamp ≠ .requested ∨ s.firstCount + s.openBalls ≠ 0 → s.checkClamp = s))

/-! ### Feeds and the arbiter -/

/-- RUN (R43, R165): the refusals, and the feed RUNNING with the parameters given, the enable set where no reason stands, the
trigger of an issue pass. -/
def Obligations.RunStartsTheFeed : Prop :=
  ∀ (h : Head) (count : W16) (trav fu ord del dep : Byte) (s : State), s.hears h.port →
    let ok := trav.toNat ≤ 2 ∧ (trav.toNat = 2 → fu.toNat ≤ 63) ∧ ord.toNat ≤ 1 ∧ del.toNat ≤ 1 ∧ 1 ≤ dep.toNat
      ∧ dep.toNat ≤ 4
    let f := { s.feed h with
      state := .running
      count := count.toNat
      traversal := if trav.toNat = 0 then .ascend else if trav.toNat = 1 then .descend else .fixed
      fixedUnit := fu.toNat
      order := if ord.toNat = 0 then .sequential else .stride
      delivery := if del.toNat = 0 then .pull else .push
      depth := dep.toNat
      fill := (s.feed h).fill && decide (del.toNat = 1) }
    (¬ok → Refuses (.run h.port count trav fu ord del dep) s .range 0)
    ∧ (ok → (s.feed h).latch = true → Refuses (.run h.port count trav fu ord del dep) s .state 3)
    ∧ (ok → (s.feed h).latch = false → s.hold.reasons = .empty → s.hold.enable = false →
        Answers (.run h.port count trav fu ord del dep) s
          (fun t => ({ t.setFeed h f with hold := { s.hold with enable := true } }.postAll
            (.hold 6 .empty true .empty .empty (s.hold.code != 0))).trigger) .ok 1 [])
    ∧ (ok → (s.feed h).latch = false → s.hold.reasons ≠ .empty ∨ s.hold.enable = true →
        Answers (.run h.port count trav fu ord del dep) s (fun t => (t.setFeed h f).trigger) .ok 0 [])

/-- HALT and HSTAT (R45, R60): HALT puts the feed OFF from any state and withdraws its fill request; HSTAT changes nothing and
reads the feed. GUARD and CLRSTOP (R59, R89): GUARD is BUSY while a list holds a ticket and otherwise replaces G and is a trigger
(R51); CLRSTOP is STATE(TOUCH) while a run counter of the head is above 0 and otherwise clears the latch. The detail 0 of the
OK of HALT, HSTAT and GUARD is the model's choice (log entry 30). -/
def Obligations.HaltHstatGuardClrstop : Prop :=
  (
    ∀ (h : Head) (s : State), s.hears h.port →
      Answers (.halt h.port) s (fun t => t.setFeed h { s.feed h with state := .off, fill := false }) .ok 0
          [match (s.feed h).state with | .off => 0 | .running => 1 | .stopped _ => 2]
      ∧ Answers (.hstat h.port) s id .ok 0
          (([match (s.feed h).state with | .off => 0 | .running => 1 | .stopped _ => 2,
             match (s.feed h).state with | .stopped .fail => 1 | .stopped .touch => 2 | _ => 0] : List Byte)
           ++ be16 (s.feed h).count
           ++ [b8 (s.feed h).traversal.code, b8 (s.feed h).fixedUnit, b8 (s.feed h).order.code,
               b8 (s.feed h).delivery.code, b8 (s.feed h).depth, if (s.feed h).cursor.isSome then 1 else 0,
               b8 (((s.feed h).cursor.map (·.unit)).getD 0)]
           ++ be16 (((s.feed h).cursor.map (·.wire)).getD 0)
           ++ [b8 (s.feed h).nextNumber, if (s.feed h).latch then 1 else 0,
               match s.attempt h with | .ok _ => 0 | .error why => b8 why.code, b8 (s.feed h).tickets.length]
           ++ (s.feed h).tickets.flatMap Ticket.bytes))
  ∧
  (
    ∀ (s : State),
      (∀ g : W16, s.hears .cc → (s.feed .a).tickets ≠ [] ∨ (s.feed .b).tickets ≠ [] → Refuses (.guard .cc g) s .busy 0)
      ∧ (∀ g : W16, s.hears .cc → (s.feed .a).tickets = [] → (s.feed .b).tickets = [] →
          Answers (.guard .cc g) s (fun t => { t with issuer := { t.issuer with guard := g.toNat } }.trigger) .ok 0
            (be16 s.issuer.guard))
      ∧ (∀ h : Head, s.hears h.port → 0 < (s.chan (zChan h)).run ∨ 0 < (s.chan (usChan h)).run →
          Answers (.clrstop h.port) s id .state 3 [b8 (s.chan (zChan h)).run, b8 (s.chan (usChan h)).run])
      ∧ (∀ h : Head, s.hears h.port → (s.chan (zChan h)).run = 0 → (s.chan (usChan h)).run = 0 →
          Answers (.clrstop h.port) s (fun t => t.setFeed h { s.feed h with latch := false }) .ok
            (if (s.feed h).latch then 1 else 0) [0, 0])
      ∧ (∀ h : Head, s.trigger.feed h = if (s.feed h).state = .running ∧ (s.feed h).delivery = .push then
          { s.feed h with fill := true } else s.feed h)
      ∧ (∃ x : PerHead Feed, s.trigger = { s with issuer := { s.issuer with feeds := x } }))

/-- NEXT and CLAIM at their taking (R49, R188): a second one is BUSY, NEXT in PUSH delivery is STATE(PUSH), and else the
request waits for the arbiter with the port in WAITING. BUSY before STATE(PUSH) is the model's choice (log entry 8). -/
def Obligations.NextAndClaimWait : Prop :=
  ∀ (h : Head) (unit : Byte) (wire : W16) (s : State), s.hears h.port →
    ((s.feed h).request ≠ none → Refuses (.next h.port) s .busy 0 ∧ Refuses (.claim h.port unit wire) s .busy 0)
    ∧ ((s.feed h).request = none → (s.feed h).delivery = .push → Refuses (.next h.port) s .state 4)
    ∧ ((s.feed h).request = none → (s.feed h).delivery = .pull →
        exec (.next h.port) s = .next (s.finish
          (((s.taking (.next h.port)).setFeed h { s.feed h with request := some .next }).setPort h.port
            { (s.taking (.next h.port)).port h.port with framing := .waiting })))
    ∧ ((s.feed h).request = none →
        exec (.claim h.port unit wire) s = .next (s.finish
          (((s.taking (.claim h.port unit wire)).setFeed h
              { s.feed h with request := some (.claim unit.toNat wire.toNat) }).setPort h.port
            { (s.taking (.claim h.port unit wire)).port h.port with framing := .waiting })))

/-- The scan and the slots it may issue (R46, R47): a slot is eligible exactly when it is OPEN in a unit not SKIPPED, every
lower tier of its unit is closed, and every ticket of the other head lies at least the guard distance away. A scan visits each
slot of the scope once, unit by unit in the order of the traversal and wires ascending: from the first slot without a cursor
or with one outside the scope; under SEQUENTIAL from the slot after the cursor, wrapping, with the cursor slot last; under
STRIDE from wire 0 of the unit after the cursor's unit, wrapping, with the cursor's unit last. -/
def Obligations.ScanAndEligibility : Prop :=
  (∀ (s : State) (m : StripMap) (h : Head) (i : SlotId), s.eligible m h i = true ↔
    ∃ r sl, m.units[i.unit]? = some r ∧ r.slots[i.wire]? = some sl ∧ r.state ≠ .skipped ∧ sl.phase = .opened
      ∧ (∀ t, t < ((s.boundProgram m).wire i.wire).tier → (r.unclosed[t]?).getD 0 = 0)
      ∧ ∀ x ∈ (s.feed h.other).tickets,
          s.issuer.guard ≤ (((i.unit * (s.boundProgram m).pitch + ((s.boundProgram m).wire i.wire).x : Nat) : Int)
            - (x.absX : Int)).natAbs)
  ∧ ∀ (f : Feed) (U W : Nat),
      (∀ i : SlotId, (f.scan U W).count i = if i.unit < U ∧ i.wire < W ∧ (f.traversal = .fixed → i.unit = f.fixedUnit)
        then 1 else 0)
      ∧ (let order := match f.traversal with
            | .ascend => List.range U
            | .descend => (List.range U).reverse
            | .fixed => if f.fixedUnit < U then [f.fixedUnit] else []
         let wires := fun (u : Nat) (ws : List Nat) => ws.map (fun w => (⟨u, w⟩ : SlotId))
         let slots := fun (us : List Nat) => us.flatMap (fun u => wires u (List.range W))
         (f.cursor = none → f.scan U W = slots order)
         ∧ (∀ c, f.cursor = some c → c.unit ∉ order → f.scan U W = slots order)
         ∧ ∀ c before after, f.cursor = some c → order = before ++ c.unit :: after →
             (f.order = .sequential → c.wire < W → f.scan U W
               = wires c.unit ((List.range W).drop (c.wire + 1)) ++ slots after ++ slots before
                 ++ wires c.unit ((List.range W).take (c.wire + 1)))
             ∧ (f.order = .stride → f.scan U W = slots after ++ slots before ++ slots [c.unit]))
      ∧ (∀ c, f.cursor = some c → f.order = .sequential → c.unit < U → c.wire < W →
          (f.traversal = .fixed → c.unit = f.fixedUnit) → (f.scan U W).getLast? = some c)

/-- A NEXT served in its turn (R40, R44, R48 to R50, R53): the reason of NONE that holds first, or the ticket issued with all its
effects, under the next ticket number that is not held in the list. The response is loaded only while the port is still WAITING (R188). -/
def Obligations.ArbiterServesNext : Prop :=
  ∀ (h : Head) (s : State), (s.feed h).request = some .next →
    (s.issuer.lastServed = h → (s.feed h.other).request = none ∧ (s.feed h.other).fill = false) →
    let s0 := s.setFeed h { s.feed h with request := none }
    let answer := fun (t : State) (r : CmdResult) (d : Nat) (data : List Byte) =>
      if (s.port h.port).framing = .waiting then t.respond h.port r d data else t
    let refused := fun (d : Nat) => exec .arbiterServe s = .next (s.finish (answer s0 .none d []))
    let numbers := (s.feed h).tickets.map Ticket.number
    ((s.feed h).nextNumber < 256 → numbers.length < 256 →
      isNextFree 256 (· ∈ numbers) (s.feed h).nextNumber (s.feed h).pickNumber)
    ∧ ((s.feed h).delivery = .push → exec .arbiterServe s = .next (s.finish (answer s0 .state 4 [])))
    ∧ ((s.feed h).delivery = .pull →
      (s.map = none → refused 1)
      ∧ ∀ m, s.map = some m →
        (m.complete = true → refused 2)
        ∧ (m.complete = false →
          (s.hold.reasons ≠ .empty ∨ s.hold.enable = false → refused 3)
          ∧ (s.hold.reasons = .empty → s.hold.enable = true →
            (s.tracker.clamp ≠ .none → refused 4)
            ∧ (s.tracker.clamp = .none →
              ((s.feed h).state ≠ .running → refused 5)
              ∧ ((s.feed h).state = .running →
                ((s.feed h).depth ≤ (s.feed h).tickets.length → refused 6)
                ∧ ((s.feed h).tickets.length < (s.feed h).depth →
                  let open' := fun i => m.isOpen i
                  let ready := fun i => m.tierReady (s.boundProgram m) i
                  let free := fun i => s.guardFree m h i
                  ((∀ i ∈ s.scanFor m h, s.eligible m h i = false) →
                    ((∃ i ∈ s.scanFor m h, open' i = true ∧ ready i = true ∧ free i = false) → refused 7)
                    ∧ ((∀ i ∈ s.scanFor m h, ¬(open' i = true ∧ ready i = true ∧ free i = false)) →
                      ((∃ i ∈ s.scanFor m h, open' i = true ∧ free i = true ∧ ready i = false) → refused 8)
                      ∧ ((∀ i ∈ s.scanFor m h, ¬(open' i = true ∧ free i = true ∧ ready i = false)) → refused 9)))
                  ∧ ∀ i, (s.scanFor m h).find? (s.eligible m h) = some i →
                    let e := (s.boundProgram m).wire i.wire
                    let tk : Ticket :=
                      { number := (s.feed h).pickNumber, unit := i.unit, wire := i.wire, tier := e.tier, x := e.x,
                        absX := i.unit * (s.boundProgram m).pitch + e.x, limitSet := e.limitSet, profile := e.profile }
                    let ended := decide ((s.feed h).count = 1)
                    let s1 := { s0 with
                      map := some (m.request i.unit i.wire (requestIssue h tk.number))
                      issuer := { s.issuer with
                        lastServed := h
                        feeds := s.issuer.feeds.set h { s.feed h with
                          request := none
                          tickets := (s.feed h).tickets ++ [tk]
                          nextNumber := (tk.number + 1) % 256
                          cursor := some i
                          count := (s.feed h).count - 1
                          state := if ended then .off else .running
                          fill := (s.feed h).fill && !ended
                            && decide ((s.feed h).tickets.length + 1 < (s.feed h).depth) } } }
                    exec .arbiterServe s = .next (s.finish (answer
                      (if ended then s1.post h.port (.runEnd ((s.feed h).tickets.length + 1)) else s1) .ok
                      (if ended then 1 else 0)
                      ([b8 tk.number, b8 tk.unit] ++ be16 tk.wire ++ [b8 tk.tier] ++ be16 tk.x ++ be32 tk.absX
                        ++ [b8 tk.limitSet, b8 tk.profile])))))))))

/-- A CLAIM served in its turn (R40, R55, R56): the first check that fails, or the ticket issued without cursor and count,
under the next ticket number that is not held in the list. That a
list that CLAIM brings to the depth withdraws the fill request, and one brought beyond it does not, is the model's choice
(log entry 9). -/
def Obligations.ArbiterServesClaim : Prop :=
  ∀ (h : Head) (u w : Nat) (s : State), (s.feed h).request = some (.claim u w) →
    (s.issuer.lastServed = h → (s.feed h.other).request = none ∧ (s.feed h.other).fill = false) →
    let s0 := s.setFeed h { s.feed h with request := none }
    let answer := fun (t : State) (r : CmdResult) (d : Nat) (data : List Byte) =>
      if (s.port h.port).framing = .waiting then t.respond h.port r d data else t
    let refused := fun (r : CmdResult) (d : Nat) => exec .arbiterServe s = .next (s.finish (answer s0 r d []))
    let numbers := (s.feed h).tickets.map Ticket.number
    ((s.feed h).nextNumber < 256 → numbers.length < 256 →
      isNextFree 256 (· ∈ numbers) (s.feed h).nextNumber (s.feed h).pickNumber)
    ∧ (s.hold.reasons ≠ .empty ∨ s.hold.enable = false → refused .held 1)
    ∧ (s.hold.reasons = .empty → s.hold.enable = true →
      (s.tracker.clamp ≠ .none → refused .state 5)
      ∧ (s.tracker.clamp = .none →
        (4 ≤ (s.feed h).tickets.length → refused .full 0)
        ∧ ((s.feed h).tickets.length < 4 →
          (s.map = none → refused .range 0)
          ∧ ∀ m, s.map = some m →
            (m.slot? u w = none → refused .range 0)
            ∧ ∀ sl, m.slot? u w = some sl →
              (sl.phase.owner?.map Prod.fst = some h → refused .duplicate 0)
              ∧ (sl.phase.owner?.map Prod.fst = some h.other → refused .held 2)
              ∧ (sl.phase.code = 3 ∨ sl.phase.code = 4 → refused .state 6)
              ∧ (sl.phase = .opened →
                (m.tierReady (s.boundProgram m) ⟨u, w⟩ = false → refused .state 7)
                ∧ (m.tierReady (s.boundProgram m) ⟨u, w⟩ = true →
                  (s.guardFree m h ⟨u, w⟩ = false → refused .state 8)
                  ∧ (s.guardFree m h ⟨u, w⟩ = true →
                    let e := (s.boundProgram m).wire w
                    let tk : Ticket :=
                      { number := (s.feed h).pickNumber, unit := u, wire := w, tier := e.tier, x := e.x,
                        absX := u * (s.boundProgram m).pitch + e.x, limitSet := e.limitSet, profile := e.profile }
                    exec .arbiterServe s = .next (s.finish (answer
                      { s0 with
                        map := some (m.request u w (requestIssue h tk.number))
                        issuer := { s.issuer with
                          lastServed := h
                          feeds := s.issuer.feeds.set h { s.feed h with
                            request := none
                            tickets := (s.feed h).tickets ++ [tk]
                            nextNumber := (tk.number + 1) % 256
                            fill := (s.feed h).fill
                              && decide ((s.feed h).tickets.length + 1 ≠ (s.feed h).depth) } } } .ok 0
                      ([b8 tk.number, b8 tk.unit] ++ be16 tk.wire ++ [b8 tk.tier] ++ be16 tk.x ++ be32 tk.absX
                        ++ [b8 tk.limitSet, b8 tk.profile])))))))))

/-- A fill request served in its turn (R40, R52, R53): the ticket, under the next ticket number that is not held in the list, with
TICKET, and RUN_END after it where it ends the run, or the
request withdrawn without a notice. -/
def Obligations.ArbiterServesFill : Prop :=
  ∀ (h : Head) (s : State), (s.feed h).request = none → (s.feed h).fill = true →
    (s.issuer.lastServed = h → (s.feed h.other).request = none ∧ (s.feed h.other).fill = false) →
    let can := fun (m : StripMap) (i : SlotId) =>
      s.map = some m ∧ m.complete = false ∧ s.hold.reasons = .empty ∧ s.hold.enable = true ∧ s.tracker.clamp = .none
        ∧ (s.feed h).state = .running ∧ (s.feed h).tickets.length < (s.feed h).depth
        ∧ (s.scanFor m h).find? (s.eligible m h) = some i
    let numbers := (s.feed h).tickets.map Ticket.number
    ((s.feed h).nextNumber < 256 → numbers.length < 256 →
      isNextFree 256 (· ∈ numbers) (s.feed h).nextNumber (s.feed h).pickNumber)
    ∧ ((∀ m i, ¬can m i) → exec .fillServe s = .next (s.finish (s.setFeed h { s.feed h with fill := false })))
    ∧ ∀ m i, can m i →
      let e := (s.boundProgram m).wire i.wire
      let tk : Ticket :=
        { number := (s.feed h).pickNumber, unit := i.unit, wire := i.wire, tier := e.tier, x := e.x,
          absX := i.unit * (s.boundProgram m).pitch + e.x, limitSet := e.limitSet, profile := e.profile }
      let ended := decide ((s.feed h).count = 1)
      let s1 := { s with
        map := some (m.request i.unit i.wire (requestIssue h tk.number))
        issuer := { s.issuer with
          lastServed := h
          feeds := s.issuer.feeds.set h { s.feed h with
            tickets := (s.feed h).tickets ++ [tk]
            nextNumber := (tk.number + 1) % 256
            cursor := some i
            count := (s.feed h).count - 1
            state := if ended then .off else .running
            fill := !ended && decide ((s.feed h).tickets.length + 1 < (s.feed h).depth) } } }
      let s2 := s1.post h.port (.ticket tk.number tk.unit tk.wire tk.tier tk.limitSet tk.profile)
      exec .fillServe s = .next (s.finish
        (if ended then s2.post h.port (.runEnd ((s.feed h).tickets.length + 1)) else s2))

/-- No ticket is issued, by NEXT, push or CLAIM, while a hold reason is present, the enable is clear or the clamp state is not
NONE (R48): a step taken in such a state leaves in each list only tickets that were there. -/
def Obligations.NoIssueWhileHeldOrClamped : Prop :=
  ∀ (s t : State), step s = .next t →
    s.hold.reasons ≠ .empty ∨ s.hold.enable = false ∨ s.tracker.clamp ≠ .none →
    ∀ h : Head, ∀ x ∈ (t.feed h).tickets, x ∈ (s.feed h).tickets

/-- CANCEL and FRESET (R57, R58): NOT_FOUND, or the tickets cancelled one by one, each with its slot released, its place in
the list, on the Bond Capture and in an open window given up; FRESET puts the feed OFF and clears the cursor. The detail 0 of
OK is the model's choice (log entry 30). -/
def Obligations.CancelAndFreset : Prop :=
  ∀ (h : Head) (s : State), s.hears h.port →
    (∀ n : Byte, (∀ t ∈ (s.feed h).tickets, t.number ≠ n.toNat) → Refuses (.cancel h.port n) s .notFound 0)
    ∧ (∀ (n : Byte) (t : Ticket), (s.feed h).tickets.find? (fun t => t.number == n.toNat) = some t →
        Answers (.cancel h.port n) s (fun u => (u.cancelTicket h .cancelled t).trigger) .ok 0
          ([b8 t.unit] ++ be16 t.wire ++ [b8 ((s.cancelTicket h .cancelled t).slotCode t)]))
    ∧ ((s.feed h).tickets = [] →
        Answers (.freset h.port) s (fun u => u.setFeed h { s.feed h with state := .off, fill := false, cursor := none })
          .ok 0 [0, 0, 0, 0])
    ∧ ((s.feed h).tickets ≠ [] →
        let all := fun (u : State) => (s.feed h).tickets.foldl (fun u t => u.cancelTicket h .freset t) u
        let count := fun (c : Nat) => b8 ((s.feed h).tickets.countP (fun t => (all s).slotCode t == c))
        Answers (.freset h.port) s
          (fun u => ((all u).setFeed h { (all u).feed h with state := .off, fill := false, cursor := none }).trigger) .ok 0
          [b8 (s.feed h).tickets.length, count 0, count 4, count 3])
    ∧ (∀ (t : Ticket) (why : StrayReason), s.cancelTicket h why t
        = (({ s with
              map := s.map.map (fun m => m.request t.unit t.wire (requestRelease h t.number t.tier))
              issuer := { s.issuer with
                feeds := s.issuer.feeds.set h { s.feed h with tickets := (s.feed h).tickets.erase t } }
              bond := s.bond.set h { s.capture h with
                armed := match (s.capture h).armed with
                  | some a => if a.ticket = t then none else some a
                  | none => none
                window := match (s.capture h).window with
                  | some w => some { w with binding := match w.binding with
                      | .bound t' ph => if t' = t then .stray why t.number ph else .bound t' ph
                      | b => b }
                  | none => none } } : State).checkComplete).checkClamp)

/-! ### Links and conditioning -/

/-- CHCFG (R76, R81, R82): the refusals in their order; then the channel configured and reset, the timeout of the link rounded
up to a multiple of 4, and its absence timer started or stopped. The detail 0 of OK is the model's choice (log entry 30). -/
def Obligations.ChcfgConfigures : Prop :=
  ∀ (code flags d sh : Byte) (o : W24) (metric : Byte) (t : W24) (n : Byte) (timeout : W16) (s : State), s.hears .cc →
    let i := Instr.chcfg .cc code flags d sh o metric t n timeout
    (4 < code.toNat → Refuses i s .range 0)
    ∧ ∀ c : ChanId, c = (match code.toNat with | 0 => .az | 1 => .aus | 2 => .bz | 3 => .bus | _ => .pf) → code.toNat ≤ 4 →
      let ok := flags.toNat ≤ 1 ∧ 1 ≤ d.toNat ∧ d.toNat ≤ 32 ∧ sh.toNat ≤ 15 ∧ metric.toNat ≤ 15 ∧ 8 ≤ timeout.toNat
        ∧ timeout.toNat ≤ 1020 ∧ (c ≠ .pf → 1 ≤ t.toNat ∧ t.toNat ≤ 8388607 ∧ 1 ≤ n.toNat)
      let isOpen := (c.head?.bind (fun h => (s.capture h).window)).isSome || (decide (c = .pf) && s.pull.capture.isSome)
      let stored := (timeout.toNat + 3) / 4 * 4
      let running := (s.link c.link).present
        && (linkChans c.link).any (fun c' => if c' = c then flags.toNat == 1 else (s.chan c').enabled)
      (¬ok → Refuses i s .range 0)
      ∧ (ok → isOpen = true → Refuses i s .busy 0)
      ∧ (ok → isOpen = false → Answers i s
          (fun u => (u.setChan c
              { enabled := flags.toNat == 1, d := d.toNat, s := sh.toNat, o := o.toInt, metric := metric.toNat,
                t := if c = .pf then 0 else t.toNat, n := if c = .pf then 0 else n.toNat, sum := 0, count := 0,
                run := 0 }).setLink c.link
            { s.link c.link with timeout := stored, timer := if running then some stored else none }) .ok 0
          (be16 stored ++ [if (s.link c.link).present then 0 else 1]))

/-- ADDRESS_WORD and DATA_WORD (R68, R70 to R74, R76, R78): a good word restarts a running timer and brings an ABSENT link
back with LINK_BACK; an address word sets selection and packing; a data word's samples go, in order, to the channels the
packing and the selection give. A receiver that waits for its line to rest takes no word (the model's choice, log entry 20).
So are the order of the two samples of SPLIT (log entry 21) and of LINK_BACK before the samples of its word (log entry 22).
The thirty-five bits of a good word on the line (R67, section 11.8), start bit 0, address flag, low half and high half each
from the most significant bit on, stop bit 1, do what the word's row does, and fewer only join the assembling word (that rows
stand for whole words is the model's choice, log entry 6). -/
def Obligations.WordsReachTheirChannels : Prop :=
  ∀ (l : Link) (w : W32) (s : State),
    let r := s.link l
    let code := w.toNat % 256
    let selection : Selection :=
      match l with
      | .slP => if code = 3 then .force else .none
      | _ => if code = 1 then .z else if code = 2 then .us else .none
    let packing : Packing :=
      match w.toNat / 256 % 4 with
      | 1 => .pair | 2 => .split | _ => .single
    let enabled := (linkChans l).any (fun c => (s.chan c).enabled)
    let back := fun (sel : Selection) (pk : Packing) (t : State) =>
      (t.post .cc (.linkBack l sel pk)).post (match l with | .slA => .ha | .slB => .hb | .slP => .mh) (.linkBack l sel pk)
    let restarted := fun (r : Receiver) => { r with timer := if r.timer.isSome then some r.timeout else none }
    let returned := fun (r : Receiver) => { r with present := true, timer := if enabled then some r.timeout else none }
    let low := (BitVec.ofNat 16 w.toNat).toInt
    let high := (BitVec.ofNat 16 (w.toNat / 65536)).toInt
    let chosen : Option ChanId :=
      match l, r.selection with
      | .slA, .z => some .az | .slA, .us => some .aus | .slB, .z => some .bz | .slB, .us => some .bus
      | .slP, .force => some .pf | _, _ => none
    let samples : List (ChanId × Int) :=
      match l, r.packing with
      | .slA, .split => [(.az, low), (.aus, high)]
      | .slB, .split => [(.bz, low), (.bus, high)]
      | .slP, .split => [(.pf, low)]
      | _, .single => chosen.toList.map (fun c => (c, low))
      | _, .pair => chosen.toList.flatMap (fun c => [(c, low), (c, high)])
    (r.atRest = true → r.present = true →
      exec (.addressWord l w) s
        = .next (s.setLink l { restarted r with selection := selection, packing := packing }))
    ∧ (r.atRest = true → r.present = false →
      exec (.addressWord l w) s
        = .next (back selection packing (s.setLink l { returned r with selection := selection, packing := packing })))
    ∧ (r.atRest = true → r.present = true →
      exec (.dataWord l w) s
        = .next (s.finish (samples.foldl (fun t x => t.sample x.1 x.2) (s.setLink l (restarted r)))))
    ∧ (r.atRest = true → r.present = false →
      exec (.dataWord l w) s = .next (s.finish (samples.foldl (fun t x => t.sample x.1 x.2)
        (back r.selection r.packing (s.setLink l (returned r))))))
    ∧ (r.atRest = false → exec (.addressWord l w) s = .next s ∧ exec (.dataWord l w) s = .next s)
    ∧ (r.atRest = true → r.assembling = [] →
      let sent := fun (flag : Bool) => [false, flag] ++ (List.range 16).map (fun k => w.getLsbD (15 - k))
        ++ (List.range 16).map (fun k => w.getLsbD (31 - k)) ++ [true]
      let received := fun (bits : List Bool) => bits.foldl (fun t level => t.linkBit l level) s
      exec (.addressWord l w) s = .next (received (sent true))
      ∧ exec (.dataWord l w) s = .next (received (sent false))
      ∧ ∀ flag n, n < 35 → received ((sent flag).take n) = s.setLink l { r with assembling := (sent flag).take n })

/-- A sample on a channel (R74, R83, R85, R87, R88, R91, R96): dropped on a disabled channel, summed until its group is complete,
and then a value for the touch detector of a head channel and for the capture open on the channel. -/
def Obligations.SamplesBecomeValues : Prop :=
  ∀ (c : ChanId) (x : Int) (s : State),
    let ch := s.chan c
    let v := max (-8388608) (min 8388607 (roundShift ch.s (ch.sum + x) - ch.o))
    let run := if ch.t ≤ v.natAbs then (if ch.run < ch.n then ch.run + 1 else ch.run) else 0
    (ch.enabled = false → s.sample c x = s)
    ∧ (ch.enabled = true → ch.count + 1 < ch.d →
        s.sample c x = s.setChan c { ch with sum := ch.sum + x, count := ch.count + 1 })
    ∧ (ch.enabled = true → ch.d ≤ ch.count + 1 → c = .pf →
        s.sample c x = { s.setChan c { ch with sum := 0, count := 0 } with
          pull := { s.pull with capture := s.pull.capture.map (fun k =>
            if k.n < 4095 then { k with n := k.n + 1, vmax := some (max (k.vmax.getD v) v) }
            else { k with long := true }) } })
    ∧ ∀ h : Head, c.head? = some h → ch.enabled = true → ch.d ≤ ch.count + 1 →
        let w' := (s.capture h).window.map (fun w =>
          if w.binding = .silenced then w
          else if c = zChan h then
            (if w.z.n < 4095 then { w with z := { w.z with n := w.z.n + 1 }, z0 := some (w.z0.getD v),
                                           zmin := some (min (w.zmin.getD v) v) }
             else { w with z := { w.z with long := true } })
          else
            (if w.us.n < 4095 then { w with us := { w.us with n := w.us.n + 1 }, usSum := w.usSum + v.natAbs }
             else { w with us := { w.us with long := true } }))
        let s1 := (s.setChan c { ch with sum := 0, count := 0, run := run }).setCapture h { s.capture h with window := w' }
        let stopped := decide ((s.feed h).state = .running)
        let notice := Notice.touch h (decide (c = usChan h)) v stopped
        (run = ch.n → ch.run < ch.n → (s.feed h).latch = false →
          s.sample c x = ((s1.setFeed h { s.feed h with
            latch := true
            state := if stopped then .stopped .touch else (s.feed h).state
            fill := (s.feed h).fill && !stopped }).post h.port notice).post .cc notice)
        ∧ (run ≠ ch.n ∨ ch.n ≤ ch.run ∨ (s.feed h).latch = true → s.sample c x = s1)

/-- FRAMING_ERROR, ABSENCE_EXPIRY and LINE_RETURNS_TO_REST (R67, R69, R75, R77): the marks on the captures open on the link,
the wait for rest, the link ABSENT with LINK_LOST. A stopped timer does not expire (R76). That a receiver that waits for its
line to rest takes no broken word is the model's choice (log entry 20). On the line (R67), thirty-five bits from a start bit 0
with a stop bit 0 are a framing error; a receiver that waits for rest takes the level 1 as rest and passes over 0, and one
that has seen rest passes over the level 1 between words (that rows stand for whole words is the model's choice, log entry 6).
-/
def Obligations.BrokenAndSilentLinks : Prop :=
  ∀ (l : Link) (s : State),
    let onHead := fun (h : Head) (f : Window → Window) =>
      s.setCapture h { s.capture h with
        window := (s.capture h).window.map (fun (w : Window) => if w.binding = .silenced then w else f w) }
    let marked := fun (window : Window → Window) (pull : PullCapture → PullCapture) =>
      match l with
      | .slA => onHead .a window
      | .slB => onHead .b window
      | .slP => { s with pull := { s.pull with capture := s.pull.capture.map pull } }
    let hasWindow := fun (h : Head) => match (s.capture h).window with
      | some w => decide (w.binding ≠ .silenced)
      | none => false
    let lost := Notice.linkLost l (match l with | .slA => hasWindow .a | .slB => hasWindow .b | .slP => false)
      (match l with | .slP => s.pull.capture.isSome | _ => false)
    ((s.link l).atRest = true → exec (.framingError l) s = .next
      ((marked (fun w => { w with z := { w.z with framing := true }, us := { w.us with framing := true } })
        (fun k => { k with framing := true })).setLink l { s.link l with atRest := false }))
    ∧ ((s.link l).atRest = false → exec (.framingError l) s = .next s)
    ∧ ((s.link l).timer.isSome = true → exec (.absenceExpiry l) s = .next
      ((((marked (fun w => { w with z := { w.z with absence := true }, us := { w.us with absence := true } })
        (fun k => { k with absence := true })).setLink l { s.link l with present := false, timer := none }).post .cc
          lost).post (match l with | .slA => .ha | .slB => .hb | .slP => .mh) lost))
    ∧ ((s.link l).timer = none → exec (.absenceExpiry l) s = .next s)
    ∧ exec (.lineReturnsToRest l) s = .next (s.setLink l { s.link l with atRest := true })
    ∧ (∀ word : List Bool, (s.link l).atRest = true → (s.link l).assembling = [] → word.length = 33 →
        exec (.framingError l) s
          = .next (([false] ++ word ++ [false]).foldl (fun t level => t.linkBit l level) s))
    ∧ ((s.link l).atRest = false →
        exec (.lineReturnsToRest l) s = .next (s.linkBit l true) ∧ s.linkBit l false = s)
    ∧ ((s.link l).atRest = true → (s.link l).assembling = [] → s.linkBit l true = s)

/-- The rounding shift (R84). -/
def Obligations.RoundingShift : Prop :=
  (∀ y : Int, roundShift 0 y = y)
  ∧ (∀ (S : Nat) (y r : Int), 1 ≤ S → S ≤ 15 → r * 2 ^ S ≤ y + 2 ^ (S - 1) → y + 2 ^ (S - 1) < (r + 1) * 2 ^ S →
      roundShift S y = r)
  ∧ roundShift 4 3200 = 200 ∧ roundShift 4 (-3100) = -194 ∧ roundShift 4 (-3000) = -187 ∧ roundShift 4 8 = 1
  ∧ roundShift 4 (-8) = 0
  ∧ (∀ (S : Nat) (y lo hi : Int), lo ≤ 0 → 0 ≤ hi → lo ≤ y → y ≤ hi → lo ≤ roundShift S y ∧ roundShift S y ≤ hi)

/-- The metrics of a window and the first row of the verdict table that matches (R92 to R94). -/
def Obligations.WindowsAreJudged : Prop :=
  ∀ (w : Window) (l : LimitSet) (ph : Phase) (wz wu : Nat),
    let f := match ph with | .ball => l.ball | .stitch => l.stitch
    let r := w.judge l ph wz wu
    let DEF := r.DEF
    let USI := r.USI
    let result := (r.verdict, r.cause)
    r.DUR = w.z.n
    ∧ (w.z.n = 0 → DEF = 0) ∧ (w.us.n = 0 → USI = 0)
    ∧ (∀ (a b : Int) (q : Nat), w.z.n ≠ 0 → w.z0 = some a → w.zmin = some b → (q : Int) * 2 ^ wz ≤ a - b →
        a - b < (q + 1 : Int) * 2 ^ wz → DEF = min 65535 q)
    ∧ (∀ q : Nat, w.us.n ≠ 0 → q * 2 ^ wu ≤ w.usSum → w.usSum < (q + 1) * 2 ^ wu → USI = min 65535 q)
    ∧ (w.z.enabledAtOpen = false ∨ w.us.enabledAtOpen = false → result = (.unjudged, .disabled))
    ∧ (w.z.enabledAtOpen = true → w.us.enabledAtOpen = true →
      let marked := w.z.absence || w.z.framing || w.us.absence || w.us.framing
      (marked = true → result = (.unjudged, .link))
      ∧ (marked = false → w.z.n = 0 ∨ w.us.n = 0 → result = (.unjudged, .noData))
      ∧ (marked = false → w.z.n ≠ 0 → w.us.n ≠ 0 →
        (l.loaded = false → result = (.fail, .noLimits))
        ∧ (l.loaded = true →
          (w.z.n < f.durMin ∨ w.z.n > f.durMax → result = (.fail, .time))
          ∧ (f.durMin ≤ w.z.n → w.z.n ≤ f.durMax →
            (DEF < f.defLo → result = (.fail, .nonstick))
            ∧ (f.defLo ≤ DEF → DEF > f.defHi → result = (.fail, .overcrush))
            ∧ (f.defLo ≤ DEF → DEF ≤ f.defHi →
              (USI < f.usiLo ∨ USI > f.usiHi → result = (.fail, .usAbnormal))
              ∧ (f.usiLo ≤ USI → USI ≤ f.usiHi →
                let near := (DEF : Int) < f.defLo + f.mDef ∨ (DEF : Int) > f.defHi - f.mDef
                  ∨ (USI : Int) < f.usiLo + f.mUsi ∨ (USI : Int) > f.usiHi - f.mUsi
                (near → result = (.marginal, .none)) ∧ (¬near → result = (.good, .none))))))))

/-! ### Bond Capture -/

/-- ARM (R101, R102): NOT_FOUND, BUSY, STATE(CLAMP) in this order, or the ticket armed with its phase. That NOT_FOUND comes first
for a ticket not in the list while a window capture is present is the model's choice (log entry 36). -/
def Obligations.ArmArmsATicket : Prop :=
  ∀ (h : Head) (n : Byte) (s : State), s.hears h.port →
    ((∀ t ∈ (s.feed h).tickets, t.number ≠ n.toNat) → Refuses (.arm h.port n) s .notFound 0)
    ∧ ∀ t, (s.feed h).tickets.find? (fun t => t.number == n.toNat) = some t →
      let first := (s.map.bind (fun m => m.slot? t.unit t.wire)).any (fun sl => sl.phase.code == 2)
      let before := (s.capture h).armed
      ((s.capture h).window ≠ none → Refuses (.arm h.port n) s .busy 0)
      ∧ ((s.capture h).window = none → first = false → s.tracker.clamp ≠ .none → Refuses (.arm h.port n) s .state 5)
      ∧ ((s.capture h).window = none → first = true ∨ s.tracker.clamp = .none →
          Answers (.arm h.port n) s
            (fun u => u.setCapture h { s.capture h with armed := some ⟨t, if first then .stitch else .ball⟩ }) .ok
            (if first then 1 else 0)
            [if before.isSome then 1 else 0, b8 ((before.map (fun a => a.ticket.number)).getD 0), b8 t.number])

/-- DISARM (R103). The detail 0 of OK is the model's choice (log entry 30). -/
def Obligations.DisarmClearsTheArmedTicket : Prop :=
  ∀ (h : Head) (s : State), s.hears h.port →
    ((s.capture h).window ≠ none → Refuses (.disarm h.port) s .busy 0)
    ∧ ((s.capture h).window = none → ∀ a, (s.capture h).armed = some a →
        Answers (.disarm h.port) s (fun u => u.setCapture h { s.capture h with armed := none }) .ok 0
          [1, b8 a.ticket.number, match a.phase with | .ball => 0 | .stitch => 1])
    ∧ ((s.capture h).window = none → (s.capture h).armed = none → Answers (.disarm h.port) s id .ok 0 [0, 0, 0])

/-- WINDOW_OPEN (R86, R90, R104): the binding, the parts of the capture at its opening, both accumulators emptied. A line that is
high does not rise (the model's choice, log entry 10). -/
def Obligations.WindowsOpen : Prop :=
  ∀ (h : Head) (s : State),
    let c := s.capture h
    let absent := !(s.link (match h with | .a => .slA | .b => .slB)).present
    let part := fun (k : ChanId) => ({ enabledAtOpen := (s.chan k).enabled, n := 0, long := false, absence := absent,
                                       framing := false } : CapturePart)
    let opened := fun (b : Binding) (armed : Option Armed) =>
      ((s.setCapture h { c with
          win := true
          armed := armed
          window := some { binding := b, z := part (zChan h), us := part (usChan h), z0 := none, zmin := none,
                           usSum := 0 } }).setChan (zChan h) { s.chan (zChan h) with sum := 0, count := 0 }).setChan
        (usChan h) { s.chan (usChan h) with sum := 0, count := 0 }
    (c.win = true → exec (.windowOpen h) s = .next s)
    ∧ (c.win = false → c.armed = none → exec (.windowOpen h) s = .next (opened (.stray .notArmed 0 .ball) none))
    ∧ (∀ t, c.win = false → c.armed = some ⟨t, .ball⟩ → s.tracker.clamp ≠ .none →
        exec (.windowOpen h) s = .next (opened (.stray .clamp t.number .ball) none))
    ∧ (∀ t ph, c.win = false → c.armed = some ⟨t, ph⟩ → ph = .stitch ∨ s.tracker.clamp = .none →
        exec (.windowOpen h) s = .next (opened (.bound t ph) (some ⟨t, ph⟩)))

/-- WINDOW_CLOSE (R101, R105 to R113): the capture ends, the armed ticket is cleared and both accumulators are emptied; a BOUND
capture is judged and committed, with VERDICT, and FEED_STOP where it stops the feed; a STRAY one posts STRAY; a silenced
one posts nothing. A fall with no window capture closes nothing and has no effect but the level of the line: an armed ticket
stays armed (R105). A line that is low does not fall (the model's choice, log entry 10). -/
def Obligations.WindowsClose : Prop :=
  ∀ (h : Head) (s : State),
    let c := s.capture h
    let ended := fun (last : Option LastResult) =>
      ((s.setCapture h { c with win := false, window := none, armed := none, last := last }).setChan (zChan h)
        { s.chan (zChan h) with sum := 0, count := 0 }).setChan (usChan h) { s.chan (usChan h) with sum := 0, count := 0 }
    let report := fun (t : State) (tk : Ticket) (ph : Phase) (r : BondResult) (w : Window) =>
      if r.verdict = .fail ∧ (s.feed h).state = .running then
        ((t.setFeed h { t.feed h with state := .stopped .fail, fill := false }).post h.port
          (.verdict tk.number ph r w.z.long w.us.long true)).post h.port (.feedStop tk.number ph r.cause)
      else t.post h.port (.verdict tk.number ph r w.z.long w.us.long false)
    (c.win = false → exec (.windowClose h) s = .next s)
    ∧ (∀ w t, c.win = true → c.window = some w → w.binding = .bound t .ball →
        let r := w.judge (s.limitSet t.limitSet) .ball (s.chan (zChan h)).metric (s.chan (usChan h)).metric
        let s1 := { ended (some ⟨t.number, .ball, r.verdict⟩) with
          map := s.map.map (fun m => m.request t.unit t.wire (requestBall h t.number r)) }
        exec (.windowClose h) s = .next (s.finish (report s1 t .ball r w).checkComplete.checkClamp))
    ∧ (∀ w t, c.win = true → c.window = some w → w.binding = .bound t .stitch →
        let r := w.judge (s.limitSet t.limitSet) .stitch (s.chan (zChan h)).metric (s.chan (usChan h)).metric
        let s1 := { ended (some ⟨t.number, .stitch, r.verdict⟩) with
          map := s.map.map (fun m => m.request t.unit t.wire (requestStitch h t.number t.tier r))
          issuer := { s.issuer with
            feeds := s.issuer.feeds.set h { s.feed h with tickets := (s.feed h).tickets.erase t } }
          pull := { s.pull with selection := s.pull.selection.map (fun e =>
            if e.unit = t.unit ∧ e.wire = t.wire then { e with head := some h } else e) } }
        exec (.windowClose h) s = .next (s.finish (report s1 t .stitch r w).checkComplete.checkClamp.trigger))
    ∧ (∀ w why n ph, c.win = true → c.window = some w → w.binding = .stray why n ph →
        exec (.windowClose h) s = .next ((ended c.last).post h.port (.stray why n ph w.z.n)))
    ∧ (∀ w, c.win = true → c.window = some w → w.binding = .silenced →
        exec (.windowClose h) s = .next (ended c.last))
    ∧ (c.win = true → c.window = none → exec (.windowClose h) s = .next (s.setCapture h { c with win := false }))

/-! ### Magazines, positions and pulls -/

/-- MAGLD, MAGUL and MGRD (R121 to R124). The detail 0 of OK, and 0 in the bits of MGRD's flags byte that R124 does not name, are
the model's choices (log entries 30 and 37). -/
def Obligations.MagazineCommands : Prop :=
  ∀ (s : State),
    let present := fun (side : Nat) => if side = 0 then s.tracker.input.isSome else s.tracker.output.isSome
    (∀ (side : Byte) (id : W16) (count : Byte) (occ : Vector Byte 7), s.hears .mh →
      let i := Instr.magld .mh side id count occ
      let flagged := fun (k : Nat) => flagOf occ.toList k
      let ok := 1 ≤ count.toNat ∧ count.toNat ≤ 50 ∧ ∀ k, k < 56 → flagged k = true → k < count.toNat
      let number := (List.range count.toNat).countP flagged
      (1 < side.toNat → Refuses i s .range 0)
      ∧ (side.toNat ≤ 1 → present side.toNat = true → Refuses i s .state 9)
      ∧ (side.toNat ≤ 1 → present side.toNat = false → ¬ok → Refuses i s .range 0)
      ∧ (side.toNat = 0 → present 0 = false → ok → Answers i s
          (fun t => { t with tracker := { t.tracker with
            input := some ⟨id, (List.range count.toNat).map (fun k => if flagged k then .full else .empty)⟩ } }) .ok 0
          [b8 number, b8 (count.toNat - number)])
      ∧ (side.toNat = 1 → present 1 = false → ok → Answers i s
          (fun t => { t with tracker := { t.tracker with
            output := some ⟨id, (List.range count.toNat).map (fun k => if flagged k then .blocked else .empty)⟩ } }) .ok 0
          [b8 number, b8 (count.toNat - number)]))
    ∧ (∀ side : Byte, s.hears .mh →
      (1 < side.toNat → Refuses (.magul .mh side) s .range 0)
      ∧ (side.toNat ≤ 1 → present side.toNat = false → Refuses (.magul .mh side) s .state 10)
      ∧ (∀ tab, side.toNat = 0 → s.tracker.input = some tab → Answers (.magul .mh side) s
          (fun t => { t with tracker := { t.tracker with input := none } }) .ok 0
          (be16 tab.id.toNat ++ [b8 (tab.slots.countP (· == InSlot.full)), b8 (tab.slots.countP (· == InSlot.fed))]))
      ∧ (∀ tab, side.toNat = 1 → s.tracker.output = some tab → Answers (.magul .mh side) s
          (fun t => { t with tracker := { t.tracker with output := none } }.post .cc (.magOut tab.id tab.stowed)) .ok 0
          (be16 tab.id.toNat ++ [b8 tab.stowed, b8 (tab.slots.countP (· == OutSlot.blocked)),
            b8 (tab.slots.countP (· == OutSlot.empty))])))
    ∧ (∀ (p : PortId) (side : Byte), p = .cc ∨ p = .mh → s.hears p →
      let entry := fun (o : Option StripRecord) =>
        match o with
        | none => List.replicate 10 (0 : Byte)
        | some r =>
          [(0x01 : Byte)] ++ be32 r.serial.toNat ++ [b8 r.source, match r.binding with | .bound k => b8 k | _ => 255,
            b8 ((if r.binding = .waiting then 1 else 0) + (if r.sampled = some true then 2 else 0)),
            match r.pull.map PullStatus.state with | none => 0 | some .none => 1 | some .opened => 2 | some .closed => 3,
            b8 ((r.pull.map PullStatus.outstanding).getD 0)]
      (2 < side.toNat → Refuses (.mgrd p side) s .range 0)
      ∧ (side.toNat ≤ 1 → present side.toNat = false → Answers (.mgrd p side) s id .ok 0 [0, 0, 0, 0])
      ∧ (∀ tab, side.toNat = 0 → s.tracker.input = some tab → Answers (.mgrd p side) s id .ok 0
          ([(0x01 : Byte)] ++ be16 tab.id.toNat ++ [b8 tab.slots.length] ++ tab.slots.flatMap (fun x =>
            (match x with | .empty => 0x00 | .full => 0x01 | .fed => (0x02 : Byte)) :: List.replicate 9 0)))
      ∧ (∀ tab, side.toNat = 1 → s.tracker.output = some tab → Answers (.mgrd p side) s id .ok 0
          ([(0x01 : Byte)] ++ be16 tab.id.toNat ++ [b8 tab.slots.length] ++ tab.slots.flatMap (fun x =>
            match x with
            | .empty => List.replicate 10 (0x00 : Byte)
            | .blocked => 0x01 :: List.replicate 9 0x00
            | .stowed c => [(0x02 : Byte)] ++ be32 c.serial.toNat
                ++ [b8 c.good, b8 c.suspect, b8 c.reject, b8 c.skipped,
                    match c.pull with | .none => (0x00 : Byte) | .pass => 0x01 | .fail => 0x02])))
      ∧ (side.toNat = 2 → Answers (.mgrd p side) s id .ok 0
          (entry s.tracker.feed ++ entry s.tracker.zone ++ entry s.tracker.pull)))

/-- FEED (R118, R125) and ZONE (R126, R127): the refusals in their order; the slot FED and the strip at FEED; the strip at ZONE,
bound and mapped where a program is selected, waiting with PROGRAM_REQUIRED where none is. The map build is in
`MapBuildLaysOutTheMap`. The detail 0 of FEED's OK is the model's choice (log entry 30). -/
def Obligations.FeedAndZoneMoveTheStrip : Prop :=
  (
    ∀ (slot : Byte) (serial : W32) (s : State), s.hears .mh →
      (s.tracker.input = none → Refuses (.feed .mh slot serial) s .state 10)
      ∧ ∀ tab, s.tracker.input = some tab →
        (tab.slots.length ≤ slot.toNat → Refuses (.feed .mh slot serial) s .range 0)
        ∧ (∀ x, tab.slots[slot.toNat]? = some x → x ≠ .full → Refuses (.feed .mh slot serial) s .state 6)
        ∧ (tab.slots[slot.toNat]? = some .full →
          (s.tracker.feed ≠ none → Refuses (.feed .mh slot serial) s .busy 0)
          ∧ (s.tracker.feed = none →
            let known := (∃ r, (s.tracker.zone = some r ∨ s.tracker.pull = some r) ∧ r.serial = serial)
              ∨ ∃ out c, s.tracker.output = some out ∧ OutSlot.stowed c ∈ out.slots ∧ c.serial = serial
            (known → Refuses (.feed .mh slot serial) s .duplicate 0)
            ∧ (¬known → Answers (.feed .mh slot serial) s
                (fun t => { t with tracker := { t.tracker with
                  input := some ⟨tab.id, tab.slots.set slot.toNat .fed⟩
                  feed := some { serial := serial, source := slot.toNat, binding := .absent, skipMask := none,
                                 sampled := none, outcomes := none, pull := none } } }) .ok 0
                [b8 ((tab.slots.set slot.toNat .fed).countP (· == InSlot.full))]))))
  ∧
  (
    ∀ (mask : Vector Byte 8) (s : State), s.hears .mh →
      (s.tracker.feed = none → Refuses (.zone .mh mask) s .state 11)
      ∧ (s.tracker.feed ≠ none → s.tracker.zone ≠ none → Refuses (.zone .mh mask) s .busy 0)
      ∧ ∀ r, s.tracker.feed = some r → s.tracker.zone = none →
        let moved := fun (t : State) => { t with tracker := { t.tracker with
          feed := none
          zone := some { r with skipMask := some mask, binding := .waiting } } }
        (s.programs.selection = none →
          Answers (.zone .mh mask) s (fun t => (moved t).post .cc (.programRequired r.serial)) .ok 0 [255, 0, 0, 0])
        ∧ ∀ slot prog, s.programs.selection = some slot → s.program? slot = some prog → ∃ m z,
          let built := fun (t : State) =>
            (moved t).buildMap slot prog { r with skipMask := some mask, binding := .waiting }
          (built s).map = some m ∧ (built s).tracker.zone = some z
          ∧ Answers (.zone .mh mask) s built .ok 1
            [b8 slot, b8 m.units.length, b8 (m.units.countP (fun (u : UnitRec) => u.state == UnitState.skipped)),
              b8 ((if z.sampled = some true then 1 else 0) + (if m.complete then 2 else 0))])

/-- ZREL (R128 to R130, R37): the checks in their order; then the outcomes copied, the pull records created, the map discarded
with its selection list, the program READY again, the cursors absent and the strip at PULL with its pull status. The walk of
the selection list (R145, R147) makes a record for each slot that closed GOOD or MARGINAL by its stitch in a unit not SKIPPED,
while the store has room, under the next record id that is not held in the store, and counts the rest of them short. The
detail 0 of OK, and head A for an entry without a head, are the model's choices (log entries 30 and 15). -/
def Obligations.ZrelReleasesTheStrip : Prop :=
  ∀ (s : State), s.hears .mh →
    (∀ p : PullStore, p.records.length < 128 → p.nextId < 65536 →
      isNextFree 65536 (· ∈ p.records.map PullRecord.id) p.nextId p.pickId)
    ∧ (s.tracker.zone = none → Refuses (.zrel .mh) s .state 11)
    ∧ ∀ r, s.tracker.zone = some r →
      (r.binding = .waiting → Refuses (.zrel .mh) s .state 12)
      ∧ ∀ m, r.binding ≠ .waiting → s.map = some m →
        let prog := s.boundProgram m
        (m.complete = false → Refuses (.zrel .mh) s .state 2)
        ∧ (m.complete = true → s.tracker.clamp ≠ .none → Refuses (.zrel .mh) s .state 5)
        ∧ (m.complete = true → s.tracker.clamp = .none → prog.exportRequired = true → m.exportTaken = false →
            Refuses (.zrel .mh) s .state 13)
        ∧ (m.complete = true → s.tracker.clamp = .none → prog.exportRequired = false ∨ m.exportTaken = true →
          (s.tracker.pull ≠ none → Refuses (.zrel .mh) s .state 14)
          ∧ (s.tracker.pull = none →
            let results : SelEntry → Option (BondResult × BondResult) := fun e => match m.units[e.unit]? with
              | some u => if u.state = .skipped then none else
                (match (u.slots[e.wire]?).map WireSlot.phase with
                  | some (.closed ball (some stitch) v _) =>
                    if v = .good ∨ v = .marginal then some (ball, stitch) else none
                  | _ => none)
              | none => none
            let visit : Walk → SelEntry → Walk := fun k e => match results e with
              | none => k
              | some (ball, stitch) =>
                if k.store.records.length < 128 then
                  { k with
                    store := { k.store with
                      nextId := (k.store.pickId + 1) % 65536
                      records := k.store.records ++ [
                        { id := k.store.pickId, serial := m.serial, unit := e.unit, wire := e.wire,
                          head := e.head.getD .a, ballVerdict := ball.verdict, ballDEF := ball.DEF,
                          stitchVerdict := stitch.verdict, stitchDEF := stitch.DEF,
                          limitSet := ((prog.table[e.wire]?).map WireEntry.limitSet).getD 0, state := .pending }] }
                    created := k.created + 1 }
                else { k with short := k.short + 1 }
            let k := s.pull.selection.foldl visit { store := s.pull, created := 0, short := 0 }
            let number := fun (o : UnitOutcome) => b8 (m.units.countP (fun (u : UnitRec) => u.outcome? == some o))
            Answers (.zrel .mh) s
              (fun t =>
                let t1 : State := { t with
                  map := none
                  pull := { k.store with selection := [] }
                  programs := { t.programs with
                    slots := t.programs.slots.setIfInBounds m.program
                      ((s.program? m.program).map (fun (q : Program) => { q with state := .ready })) }
                  issuer := { t.issuer with
                    feeds := ⟨{ t.issuer.feeds.a with cursor := none }, { t.issuer.feeds.b with cursor := none }⟩ }
                  tracker := { t.tracker with
                    zone := none
                    pull := some { r with
                      outcomes := some (m.units.map (fun u => u.outcome?.getD .good))
                      pull := some { state := if k.created = 0 then .none else .opened, outstanding := k.created,
                                     passed := 0, failed := 0 } } } }
                if 0 < k.short then t1.post .cc (.pullShort m.serial k.short k.created) else t1) .ok 0
              (be32 m.serial.toNat ++ [number .good, number .suspect, number .reject, number .skipped, b8 k.created])))

/-- STOW (R131, R132). The detail 0 of OK is the model's choice (log entry 30). -/
def Obligations.StowFillsASlot : Prop :=
  ∀ (slot : Byte) (s : State), s.hears .mh →
    (s.tracker.pull = none → Refuses (.stow .mh slot) s .state 11)
    ∧ ∀ r, s.tracker.pull = some r →
      (s.tracker.output = none → Refuses (.stow .mh slot) s .state 10)
      ∧ ∀ tab, s.tracker.output = some tab →
        (tab.slots.length ≤ slot.toNat → Refuses (.stow .mh slot) s .range 0)
        ∧ (∀ x, tab.slots[slot.toNat]? = some x → x ≠ .empty → Refuses (.stow .mh slot) s .state 6)
        ∧ (tab.slots[slot.toNat]? = some .empty →
          (∀ k, r.pull = some k → k.state = .opened → Answers (.stow .mh slot) s id .busy 0 [b8 k.outstanding])
          ∧ (∀ k, r.pull = some k → k.state ≠ .opened →
            let number := fun (o : UnitOutcome) => (r.outcomes.getD []).countP (· == o)
            let outcome : PullOutcome := if 0 < k.failed then .fail else if 0 < k.passed then .pass else .none
            let contents : Stowed :=
              { serial := r.serial, good := number .good, suspect := number .suspect, reject := number .reject,
                skipped := number .skipped, pull := outcome }
            let tab' : OutTable := { tab with slots := tab.slots.set slot.toNat (.stowed contents) }
            let free := tab'.slots.countP (· == OutSlot.empty)
            Answers (.stow .mh slot) s
              (fun t =>
                let t1 : State := { t with tracker := { t.tracker with output := some tab', pull := none } }
                if free = 0 then (t1.post .cc (.magFull tab.id tab'.stowed)).post .mh (.magFull tab.id tab'.stowed)
                else t1) .ok 0
              (be32 r.serial.toNat ++ [b8 (number .good), b8 (number .suspect), b8 (number .reject), b8 (number .skipped),
                match outcome with | .none => 0 | .pass => 1 | .fail => 2, b8 free])))

/-- CLAMP and CLDONE (R133, R134, R136). -/
def Obligations.ClampAndCldone : Prop :=
  ∀ (s : State), s.hears .mh →
    let isBall := fun (h : Head) => match (s.capture h).window with
      | some w => (match w.binding with | .bound _ .ball => true | _ => false)
      | none => false
    let firsts := (s.map.map (fun (m : StripMap) => m.totals.first)).getD 0
    let balls := (if isBall .a then 1 else 0) + (if isBall .b then 1 else 0)
    let clamped := fun (c : Clamp) (t : State) => ({ t with tracker := { t.tracker with clamp := c } } : State)
    (s.tracker.clamp = .none → firsts + balls = 0 → Answers (.clamp .mh) s (clamped .granted) .ok 0 [0, 0])
    ∧ (s.tracker.clamp = .none → firsts + balls ≠ 0 →
        Answers (.clamp .mh) s (clamped .requested) .pending 0 [b8 firsts, b8 balls])
    ∧ (s.tracker.clamp = .requested → Answers (.clamp .mh) s id .pending 1 [b8 firsts, b8 balls])
    ∧ (s.tracker.clamp = .granted → Answers (.clamp .mh) s id .ok 1 [b8 firsts, b8 balls])
    ∧ Answers (.cldone .mh) s (fun t => (clamped .none t).trigger) .ok
        (match s.tracker.clamp with | .none => 0 | .requested => 1 | .granted => 2) []

/-- SPLAN and PTAKE (R140, R153), with the sixteen bytes of a record exported (section 11.8). The detail 0 of SPLAN's OK, and 0
for PF and result of a VOID record and for bit 7 of byte 9, are the model's choices (log entries 30, 34 and 37). -/
def Obligations.SplanAndPtake : Prop :=
  ∀ (s : State), s.hears .cc →
    (∀ (period limit count : Byte) (units : Vector Byte 8),
      let i := Instr.splan .cc period limit count units
      let us := (units.toList.take count.toNat).map BitVec.toNat
      let ok := 1 ≤ limit.toNat ∧ limit.toNat ≤ 32 ∧ count.toNat ≤ 8 ∧ ∀ u ∈ us, u ≤ 63
      (¬ok → Refuses i s .range 0)
      ∧ (ok → ¬us.Nodup → Refuses i s .duplicate 0)
      ∧ (ok → us.Nodup → Answers i s
          (fun t => { t with pull := { t.pull with period := period.toNat, limit := limit.toNat, units := us,
                                                   counter := 0 } }) .ok 0
          [b8 s.pull.period, b8 s.pull.counter]))
    ∧ (∀ k : Byte, k.toNat = 0 ∨ 16 < k.toNat → Refuses (.ptake .cc k) s .range 0)
    ∧ (∀ k : Byte, 1 ≤ k.toNat → k.toNat ≤ 16 →
      let finished := fun (r : PullRecord) => match r.state with | .done .. => true | .void => true | _ => false
      let taken := (s.pull.records.filter finished).take k.toNat
      let verdict := fun (v : Verdict) => match v with | .good => 0 | .marginal => 1 | .unjudged => 2 | .fail => 3
      let exported := fun (r : PullRecord) =>
        let d : Nat × Nat × Nat := match r.state with
          | .done PF mode result =>
            (PF, mode, match result with | .pass => 0 | .failLow => 1 | .failMode => 2 | .unjudged => 3)
          | _ => (0, 0, 0)
        be16 r.id ++ be32 r.serial.toNat ++ be16 (1024 * r.unit + r.wire)
          ++ [b8 ((match r.state with | .done .. => 3 | _ => 4) + 8 * (match r.head with | .a => 0 | .b => 1)
                + 16 * r.limitSet),
              b8 (verdict r.ballVerdict + 2 * verdict r.stitchVerdict + 4 * d.2.2 + 16 * d.2.1)]
          ++ be16 r.ballDEF ++ be16 r.stitchDEF ++ be16 d.1
      Answers (.ptake .cc k) s
        (fun t => { t with pull := { t.pull with records := taken.foldl (fun l r => l.erase r) s.pull.records } }) .ok
        taken.length (taken.flatMap exported ++ List.replicate (16 * (k.toNat - taken.length)) 0)
      ∧ ∀ r : PullRecord, (exported r).length = 16)

/-- PSTART, PEND and PVOID (R148, R150 to R152, R97): the refusals in their order, the record's state, the pull capture, the
pull status of the strip at PULL, PULL_RESULT and the reason PULL_FAIL, whose addition HoldAndRelease spells out
(State.addReason). That the order of R148 decides for a PSTART of a record that is not PENDING during a pull, the detail 0 of
PSTART's OK, the order of the marks in PEND's flags byte, and 0 in its other bits are the model's choices (log entries 11, 30,
33 and 37). -/
def Obligations.PullCommands : Prop :=
  ∀ (id : W16) (s : State), s.hears .mh →
    let found := s.pull.records.find? (fun r => r.id == id.toNat)
    let oldest := match s.pull.records.find? (fun r => r.state == RecordState.pending) with
      | some r => be16 r.id ++ [b8 r.unit] ++ be16 r.wire
          ++ [b8 (s.pull.records.countP (fun r => r.state == RecordState.pending))]
      | none => [0, 0, 0, 0, 0, 0]
    let become := fun (st : RecordState) =>
      s.pull.records.map (fun r => if r.id = id.toNat then { r with state := st } else r)
    let emptied := { s.chan .pf with sum := 0, count := 0 }
    let counted := fun (passed failed : Nat) (r : StripRecord) => { r with pull := r.pull.map (fun k =>
      { state := if k.outstanding = 1 then PullState.closed else k.state, outstanding := k.outstanding - 1,
        passed := k.passed + passed, failed := k.failed + failed : PullStatus }) }
    let left := ((s.tracker.pull.bind StripRecord.pull).map (fun (k : PullStatus) => k.outstanding - 1)).getD 0
    (found = none → Answers (.pstart .mh id) s (fun t => t) .notFound 0 oldest
      ∧ (∀ mode, Refuses (.pend .mh id mode) s .notFound 0) ∧ Refuses (.pvoid .mh id) s .notFound 0)
    ∧ ∀ r, found = some r →
      (r.state ≠ .pending → Answers (.pstart .mh id) s (fun t => t) .state 15 oldest)
      ∧ (∀ q, r.state = .pending → s.pull.records.find? (fun q => q.state == RecordState.testing) = some q →
          Answers (.pstart .mh id) s (fun t => t) .busy 0 (be16 q.id))
      ∧ (r.state = .pending → (∀ q ∈ s.pull.records, q.state ≠ .testing) →
        ((s.chan .pf).enabled = false → Refuses (.pstart .mh id) s .state 16)
        ∧ ((s.chan .pf).enabled = true →
          let absent := !(s.link .slP).present
          Answers (.pstart .mh id) s
            (fun t => { t with
              pull := { t.pull with
                records := become .testing
                capture := some { n := 0, long := false, absence := absent, framing := false, vmax := none } } }.setChan
              .pf emptied) .ok 0
            (be32 r.serial.toNat ++ [b8 r.unit] ++ be16 r.wire ++ [b8 r.limitSet, if absent then 1 else 0])))
      ∧ (∀ mode, r.state ≠ .testing → Refuses (.pend .mh id mode) s .state 15)
      ∧ (∀ mode : Byte, r.state = .testing → mode.toNat = 0 ∨ 6 < mode.toNat → Refuses (.pend .mh id mode) s .range 0)
      ∧ (∀ (mode : Byte) (k : PullCapture), r.state = .testing → 1 ≤ mode.toNat → mode.toNat ≤ 6 →
          s.pull.capture = some k →
          let PF := if k.n = 0 then 0 else match k.vmax with
            | some v => min 65535 (v.toNat / 2 ^ (s.chan .pf).metric)
            | none => 0
          let set := s.limitSet r.limitSet
          let result : PullResult :=
            if k.n = 0 ∨ k.absence = true ∨ k.framing = true then .unjudged
            else if set.loaded = false ∨ PF < set.pullMin then .failLow
            else if mode.toNat = 1 ∨ mode.toNat = 5 then .failMode
            else .pass
          let passed := if result = .pass then 1 else 0
          let failed := if result = .failLow ∨ result = .failMode then 1 else 0
          let notice := Notice.pullResult r.id result mode.toNat PF left
          Answers (.pend .mh id mode) s
            (fun t =>
              let t1 := (({ t with
                  pull := { t.pull with records := become (.done PF mode.toNat result), capture := none }
                  tracker := { t.tracker with pull := t.tracker.pull.map (counted passed failed) } }.setChan .pf emptied).post .cc
                notice).post .mh notice
              if result = .failLow ∨ result = .failMode then t1.addReason 4 .pullFail else t1) .ok
            (match result with | .pass => 0 | .failLow => 1 | .failMode => 2 | .unjudged => 3)
            (be16 PF ++ be16 k.n ++ [b8 ((if k.long then 1 else 0) + (if k.absence then 2 else 0)
              + (if k.framing then 4 else 0)), b8 left]))
      ∧ (r.state ≠ .pending → r.state ≠ .testing → Refuses (.pvoid .mh id) s .state 15)
      ∧ (r.state = .pending → Answers (.pvoid .mh id) s
          (fun t => { t with
            pull := { t.pull with records := become .void }
            tracker := { t.tracker with pull := t.tracker.pull.map (counted 0 0) } }) .ok 0
          ([b8 r.unit] ++ be16 r.wire ++ [b8 left]))
      ∧ (r.state = .testing → Answers (.pvoid .mh id) s
          (fun t => { t with
            pull := { t.pull with records := become .void, capture := none }
            tracker := { t.tracker with pull := t.tracker.pull.map (counted 0 0) } }.setChan .pf emptied) .ok 1
          ([b8 r.unit] ++ be16 r.wire ++ [b8 left]))

/-! ### Hold Control -/

/-- HOLD, RELEASE and the HOLDIN line (R157 to R160, R162): a reason added clears the enable and posts HOLD, reasons removed post
one HOLD, and what changes nothing posts nothing. The addition of PULL_FAIL by a pull (R161) and of RESTART (R167): absent, the
reason joins the set, the enable is cleared and one HOLD with cause 4 or 7 goes to all ports; present, nothing changes and
nothing is posted. A line that is at its level already does not change (log entry 10), and the detail 0 of RELEASE's OK and
CODE and its RANGE without data are the model's choices (log entries 30 and 35). -/
def Obligations.HoldAndRelease : Prop :=
  ∀ (s : State),
    let r := s.hold.reasons
    let stored := s.hold.code != 0
    let hold := fun (rs : Reasons) (en : Bool) (line : Bool) (t : State) =>
      ({ t with hold := { s.hold with reasons := rs, enable := en, holdin := line } } : State)
    (s.hears .cc → r.operator = false →
      Answers (.hold .cc) s
        (fun t => (hold { r with operator := true } false s.hold.holdin t).postAll
          (.hold 1 { r with operator := true } false { Reasons.empty with operator := true } .empty stored)) .ok 1
        [b8 ({ r with operator := true } : Reasons).code, 0])
    ∧ (s.hears .cc → r.operator = true →
      Answers (.hold .cc) s id .ok 0 [b8 r.code, if s.hold.enable then 1 else 0])
    ∧ (∀ (mask : Byte) (code : W16), s.hears .cc → 16 ≤ mask.toNat → Refuses (.release .cc mask code) s .range 0)
    ∧ (∀ (mask : Byte) (code : W16), s.hears .cc → mask.toNat ≤ 15 →
      let matches' := decide (s.hold.code = 0) || decide (code = s.hold.code)
      let cleared : Reasons :=
        { operator := mask.getLsbD 0 && r.operator
          line := mask.getLsbD 1 && r.line && !s.hold.holdin
          pullFail := mask.getLsbD 2 && r.pullFail && matches'
          restart := mask.getLsbD 3 && r.restart }
      let rest : Reasons :=
        { operator := r.operator && !cleared.operator, line := r.line && !cleared.line,
          pullFail := r.pullFail && !cleared.pullFail, restart := r.restart && !cleared.restart }
      let codeKept := mask.getLsbD 2 && r.pullFail && !matches'
      let lineKept := mask.getLsbD 1 && r.line && s.hold.holdin
      Answers (.release .cc mask code) s
        (fun t => if cleared = .empty then t
          else (hold rest s.hold.enable s.hold.holdin t).postAll
            (.hold 5 rest s.hold.enable .empty cleared stored))
        (if codeKept then .code else if lineKept then .state else .ok)
        (if codeKept then 0 else if lineKept then 17 else 0)
        [b8 cleared.code, b8 rest.code, if s.hold.enable then 1 else 0])
    ∧ (s.hold.holdin = false → r.line = false →
      exec .holdinActive s = .next (s.finish ((hold { r with line := true } false true s).postAll
        (.hold 2 { r with line := true } false { Reasons.empty with line := true } .empty stored))))
    ∧ (s.hold.holdin = true → r.line = true →
      exec .holdinInactive s = .next (s.finish ((hold { r with line := false } s.hold.enable false s).postAll
        (.hold 3 { r with line := false } s.hold.enable .empty { Reasons.empty with line := true } stored))))
    ∧ (s.hold.holdin = true → exec .holdinActive s = .next s)
    ∧ (s.hold.holdin = false → exec .holdinInactive s = .next s)
    ∧ (r.pullFail = false → s.addReason 4 .pullFail
        = (hold { r with pullFail := true } false s.hold.holdin s).postAll
            (.hold 4 { r with pullFail := true } false { Reasons.empty with pullFail := true } .empty stored))
    ∧ (r.pullFail = true → s.addReason 4 .pullFail = s)
    ∧ (r.restart = false → s.addReason 7 .restart
        = (hold { r with restart := true } false s.hold.holdin s).postAll
            (.hold 7 { r with restart := true } false { Reasons.empty with restart := true } .empty stored))
    ∧ (r.restart = true → s.addReason 7 .restart = s)

/-- SETCODE (R164). -/
def Obligations.SetcodeStoresTheCode : Prop :=
  ∀ (old new : W16) (s : State), s.hears .cc →
    (s.hold.reasons.pullFail = true → Refuses (.setcode .cc old new) s .state 18)
    ∧ (s.hold.reasons.pullFail = false → old ≠ s.hold.code → Refuses (.setcode .cc old new) s .code 0)
    ∧ (s.hold.reasons.pullFail = false → old = s.hold.code →
        Answers (.setcode .cc old new) s (fun t => { t with hold := { t.hold with code := new } }) .ok
          (if new = 0 then 0 else 1) []
        ∧ ({ s.hold with code := new } : Hold).codeStored = decide (new ≠ 0))

/-! ### The screen -/

/-- RGDEF and RGDEL (R170, R171, R175): the checks in their order; the region defined, an AUTO one rendered at once; the region
removed with its cells kept, and a WTXT bound to it on any port cut off. The detail 0 of OK is the model's choice (log
entry 30). -/
def Obligations.RegionCommands : Prop :=
  ∀ (s : State), s.hears .cc →
    (∀ (index owner kind left top width height attr : Byte),
      let i := Instr.rgdef .cc index owner kind left top width height attr
      let field : FieldKind := match kind.toNat with | 0 => .progress | 1 => .headA | 2 => .headB | 3 => .magazine | _ => .pull
      let a : Attr := { colour := attr.extractLsb' 0 3, blink := attr.getLsbD 3 }
      let who : Owner := match owner.toNat with
        | 0 => .port .cc | 1 => .port .ha | 2 => .port .hb | 3 => .port .mh | _ => .auto field a
      let r : Region := { left := left.toNat, top := top.toNat, width := width.toNat, height := height.toNat, owner := who }
      let bytesOk := index.toNat ≤ 7 ∧ owner.toNat ≤ 4 ∧ attr.toNat < 16 ∧ (owner.toNat = 4 → kind.toNat ≤ 4)
      let placeOk := 1 ≤ width.toNat ∧ 1 ≤ height.toNat ∧ left.toNat + width.toNat ≤ 48 ∧ top.toNat + height.toNat ≤ 20
      let fits := owner.toNat = 4 → (if kind.toNat = 0 then 24 else 20) ≤ width.toNat
        ∧ (if kind.toNat = 4 then 1 else 2) ≤ height.toNat
      let clash := ∃ (k : Nat) (q : Region), s.screen.region? k = some q ∧ q.left < r.left + r.width
        ∧ r.left < q.left + q.width ∧ q.top < r.top + r.height ∧ r.top < q.top + q.height
      let defined := { s.screen with regions := s.screen.regions.setIfInBounds index.toNat (some r) }
      (¬(bytesOk ∧ placeOk ∧ fits) → Refuses i s .range 0)
      ∧ (bytesOk → placeOk → fits →
        (clash → Refuses i s .state 19)
        ∧ (¬clash → s.screen.region? index.toNat ≠ none → Refuses i s .inUse 0)
        ∧ (¬clash → s.screen.region? index.toNat = none →
            Answers i s
              (fun t => { t with
                screen := if owner.toNat = 4 then defined.render s.hold.banner r a (s.fieldText field) else defined }) .ok 0
              [b8 (s.screen.regionCount + 1)])))
    ∧ (∀ index : Byte,
      (8 ≤ index.toNat → Refuses (.rgdel .cc index) s .range 0)
      ∧ (index.toNat ≤ 7 → s.screen.region? index.toNat = none → Refuses (.rgdel .cc index) s .notFound 0)
      ∧ (∀ r, s.screen.region? index.toNat = some r →
          Answers (.rgdel .cc index) s
            (fun t => { t with
              screen := { t.screen with regions := t.screen.regions.setIfInBounds index.toNat none }
              ports := t.ports.map (fun q => match q.framing with
                | .wtxtText j _ _ _ => if j = index.toNat then { q with framing := .wtxtCut } else q
                | _ => q) }) .ok 0
            [b8 r.owner.code, match r.owner with | .auto k _ => b8 k.code | .port _ => 0]))

/-- WTXT and its text bytes (R172 to R174, R180): the header's checks in their order and the write pointer; a text byte
writes one cell of the region and moves the pointer, and makes the row dirty where it changes a displayed cell; a cut one
writes nothing. Which bytes the header's row delivers is the model's choice (log entry 3). -/
def Obligations.WtxtWritesTheRegion : Prop :=
  ∀ (p : PortId) (s : State), s.hears p →
    (∀ (index col row attr : Byte) (received : List Byte), (s.port p).framing = .wtxtHeader received →
      received.isPrefixOf [index, col, row, attr] = true → received.length < 4 →
      let after := fun (r : CmdResult) (f : Framing) =>
        s.setPort p { s.port p with dataOut := 0, unfinished := none, previous := r, framing := f }
      let i := Instr.wtxt p index col row attr
      (8 ≤ index.toNat → exec i s = .next (after .range .ignore))
      ∧ (index.toNat ≤ 7 → s.screen.region? index.toNat = none → exec i s = .next (after .notFound .ignore))
      ∧ ∀ r, index.toNat ≤ 7 → s.screen.region? index.toNat = some r →
        (r.owner ≠ .port p → exec i s = .next (after .role .ignore))
        ∧ (r.owner = .port p → r.width ≤ col.toNat ∨ r.height ≤ row.toNat ∨ 16 ≤ attr.toNat →
            exec i s = .next (after .range .ignore))
        ∧ (r.owner = .port p → col.toNat < r.width → row.toNat < r.height → attr.toNat < 16 →
            exec i s = .next (after .ok (.wtxtText index.toNat col.toNat row.toNat
              { colour := attr.extractLsb' 0 3, blink := attr.getLsbD 3 }))))
    ∧ (∀ (index col row attr : Byte), (∀ received, (s.port p).framing ≠ .wtxtHeader received) →
        exec (.wtxt p index col row attr) s
          = exec (.wtxt p index col row attr)
              (s.setPort p { (s.port p).commandByte with framing := .wtxtHeader [] }))
    ∧ (∀ (ch : Byte) (k col row : Nat) (a : Attr) (r : Region), (s.port p).framing = .wtxtText k col row a →
        s.screen.region? k = some r →
        let next := if col + 1 < r.width then (col + 1, row) else if row + 1 < r.height then (0, row + 1) else (0, 0)
        let x : Sys2Proof.Machine.Cell := { ch := ch, attr := a }
        let bannered := s.hold.banner ≠ .none ∧ r.top + row < 2
        ∃ c : Screen,
          exec (.wtxtTextByte p ch) s = .next (s.finish ({ s with screen := c }.setPort p
            { s.port p with dataOut := 0, unfinished := none, framing := .wtxtText k next.1 next.2 a }))
          ∧ (r.top + row < 20 → r.left + col < 48 → c.cell (r.top + row) (r.left + col) = x)
          ∧ (∀ y z, (y, z) ≠ (r.top + row, r.left + col) → c.cell y z = s.screen.cell y z)
          ∧ (∀ y : Fin 20, c.dirty[y] = (s.screen.dirty[y]
              || decide (y.val = r.top + row ∧ ¬bannered ∧ s.screen.cell (r.top + row) (r.left + col) ≠ x)))
          ∧ c.regions = s.screen.regions ∧ c.tx = s.screen.tx ∧ c.holding = s.screen.holding
          ∧ c.shift = s.screen.shift ∧ c.pnlrdy = s.screen.pnlrdy)
    ∧ (∀ ch : Byte, (s.port p).framing = .wtxtCut →
        exec (.wtxtTextByte p ch) s = .next (s.setPort p
          { s.port p with dataOut := 0, unfinished := none, previous := .notFound, framing := .ignore }))

/-- PNLRDY and the bytes of DL (R181, R182): the rise makes every row dirty and, from IDLE, starts the transfer of row 0;
the fall abandons a transfer and puts its row back; a byte sent moves the holding byte into the shift byte and loads the
next, and the last byte of a transfer is followed by the select byte of the lowest dirty row, if any. A line at its level
does not change, a select byte passes into an empty shift byte at once, a last byte in the shift byte is discarded at a
fall, and DL_BYTE_SENT with an empty shift byte changes nothing (the model's choices, log entries 10, 13, 14 and 31). DL
carries the byte in the shift byte as ten bits (section 11.8), the start bit 0, the data bits from the least significant on
and the stop bit 1, and rests at 1 with none (that the bit time is no state is the model's choice, log entry 32). -/
def Obligations.TransfersRunOverDL : Prop :=
  ∀ (s : State),
    let c := s.screen
    let bytes := fun (row : Nat) => b8 (0x80 + row) :: (List.range 48).flatMap (fun col =>
      [(c.displayed s.hold.banner row col).ch, (c.displayed s.hold.banner row col).attr.toByte])
    (∀ x, c.shift = some x → c.dl 0 = false ∧ (∀ i, i < 8 → c.dl (1 + i) = x.getLsbD i) ∧ c.dl 9 = true)
    ∧ (c.shift = none → ∀ bit, c.dl bit = true)
    ∧ (c.pnlrdy = true → exec .pnlrdyRise s = .next s)
    ∧ (c.pnlrdy = false → exec .pnlrdyFall s = .next s)
    ∧ (c.pnlrdy = false → c.tx = none → c.holding = none → c.shift = none →
        exec .pnlrdyRise s = .next { s with screen := { c with
          pnlrdy := true
          dirty := allDirty.set 0 false
          shift := some 0x80
          holding := (bytes 0)[1]?
          tx := some { row := 0, rest := (bytes 0).drop 2 } } })
    ∧ (c.pnlrdy = true → ∀ t, c.tx = some t → exec .pnlrdyFall s = .next { s with screen := { c with
          pnlrdy := false
          dirty := c.dirty.setIfInBounds t.row true
          tx := none
          holding := none
          shift := none } })
    ∧ (c.pnlrdy = true → c.tx = none →
        exec .pnlrdyFall s = .next { s with screen := { c with pnlrdy := false, holding := none, shift := none } })
    ∧ (∀ x row y rest, c.shift.isSome = true → c.holding = some x → c.tx = some { row := row, rest := y :: rest } →
        exec .dlByteSent s = .next { s with screen := { c with
          shift := some x
          holding := some y
          tx := some { row := row, rest := rest } } })
    ∧ (∀ x row, c.shift.isSome = true → c.holding = some x → c.tx = some { row := row, rest := [] } →
        c.lowestDirty = none →
        exec .dlByteSent s = .next { s with screen := { c with shift := some x, holding := none, tx := none } })
    ∧ (∀ x row next, c.shift.isSome = true → c.holding = some x → c.tx = some { row := row, rest := [] } →
        c.pnlrdy = true → c.lowestDirty = some next →
        exec .dlByteSent s = .next { s with screen := { c with
          shift := some x
          dirty := c.dirty.setIfInBounds next false
          holding := some (b8 (0x80 + next))
          tx := some { row := next, rest := (bytes next).drop 1 } } })
    ∧ (c.shift.isSome = true → c.holding = none → c.tx = none →
        exec .dlByteSent s = .next { s with screen := { c with shift := none } })
    ∧ (c.shift = none → exec .dlByteSent s = .next s)

/-! ### The laws -/

/-- The laws at reset. The levels of the input lines at reset are the model's choice (log entry 1). -/
def Obligations.LawsHoldAtReset : Prop :=
  State.reset.holdLaw ∧ State.reset.queueLaw ∧ State.reset.feedLaw ∧ State.reset.guardLaw ∧ State.reset.mapLaw
    ∧ State.reset.timerLaw ∧ State.reset.bondLaw ∧ State.reset.screenLaw ∧ State.reset.storeLaw ∧ State.reset.serialLaw
    ∧ State.reset.regionLaw

/-- Every step keeps the hold law and the queue law (R156, R159, R193). -/
def Obligations.StepKeepsHoldAndQueueLaws : Prop :=
  ∀ s t : State, step s = .next t → (s.holdLaw → t.holdLaw) ∧ (s.queueLaw → t.queueLaw)

/-- Every step keeps the feed law (R38, R40 to R42, R51). -/
def Obligations.StepKeepsFeedLaw : Prop := ∀ s t : State, s.feedLaw → step s = .next t → t.feedLaw

/-- Every step keeps the guard law (R47). -/
def Obligations.StepKeepsGuardLaw : Prop := ∀ s t : State, s.guardLaw → step s = .next t → t.guardLaw

/-- Every step keeps the law of the Bond Captures (R100, R101). -/
def Obligations.StepKeepsBondLaw : Prop := ∀ s t : State, s.bondLaw → step s = .next t → t.bondLaw

/-- Every step keeps the law of the DL transmitter (R181, R182). -/
def Obligations.StepKeepsScreenLaw : Prop := ∀ s t : State, s.screenLaw → step s = .next t → t.screenLaw

/-- Every step keeps the law of the Pull Record Store (R144, R147), with the law of close verdicts (R25). -/
def Obligations.StepKeepsStoreLaw : Prop := ∀ s t : State, s.storeLaw → step s = .next t → t.storeLaw

/-- Every step keeps the absence timer running exactly while its link is PRESENT with a channel enabled (R76), the regions apart
and on the panel (R169), and the strip serials distinct (R118). -/
def Obligations.StepKeepsTimerRegionAndSerialLaws : Prop :=
  ∀ s t : State, step s = .next t →
    (s.timerLaw → t.timerLaw) ∧ (s.regionLaw → t.regionLaw) ∧ (s.serialLaw → t.serialLaw)

/-- Every step keeps the law of the map (R19, R29, R34): the totals count the slots in each state, the units finished count is the
number of finished units, a DONE unit has nothing unclosed, and a complete map has every unit finished. -/
def Obligations.StepKeepsMapLaw : Prop := ∀ s t : State, s.mapLaw → step s = .next t → t.mapLaw
end

