-- ==== Sys2Proof/Laws/State.lean ====
section
/-! SUPPORT. One lemma for each field and each update of the state, and the entries of the state through the updates. -/

set_option Elab.async false
set_option linter.all false

namespace Sys2Proof.Machine

/-! ### setPort -/

@[simp] theorem State.setPort_ports (s : State) (p : PortId) (x : Port) : (s.setPort p x).ports = s.ports.set p x := rfl
@[simp] theorem State.setPort_programs (s : State) (p : PortId) (x : Port) : (s.setPort p x).programs = s.programs := rfl
@[simp] theorem State.setPort_map (s : State) (p : PortId) (x : Port) : (s.setPort p x).map = s.map := rfl
@[simp] theorem State.setPort_issuer (s : State) (p : PortId) (x : Port) : (s.setPort p x).issuer = s.issuer := rfl
@[simp] theorem State.setPort_links (s : State) (p : PortId) (x : Port) : (s.setPort p x).links = s.links := rfl
@[simp] theorem State.setPort_channels (s : State) (p : PortId) (x : Port) : (s.setPort p x).channels = s.channels := rfl
@[simp] theorem State.setPort_bond (s : State) (p : PortId) (x : Port) : (s.setPort p x).bond = s.bond := rfl
@[simp] theorem State.setPort_tracker (s : State) (p : PortId) (x : Port) : (s.setPort p x).tracker = s.tracker := rfl
@[simp] theorem State.setPort_pull (s : State) (p : PortId) (x : Port) : (s.setPort p x).pull = s.pull := rfl
@[simp] theorem State.setPort_hold (s : State) (p : PortId) (x : Port) : (s.setPort p x).hold = s.hold := rfl
@[simp] theorem State.setPort_screen (s : State) (p : PortId) (x : Port) : (s.setPort p x).screen = s.screen := rfl
@[simp] theorem State.setPort_pending (s : State) (p : PortId) (x : Port) : (s.setPort p x).pending = s.pending := rfl

/-! ### setFeed -/

@[simp] theorem State.setFeed_ports (s : State) (h : Head) (f : Feed) : (s.setFeed h f).ports = s.ports := rfl
@[simp] theorem State.setFeed_programs (s : State) (h : Head) (f : Feed) : (s.setFeed h f).programs = s.programs := rfl
@[simp] theorem State.setFeed_map (s : State) (h : Head) (f : Feed) : (s.setFeed h f).map = s.map := rfl
@[simp] theorem State.setFeed_issuer (s : State) (h : Head) (f : Feed) : (s.setFeed h f).issuer = { s.issuer with feeds := s.issuer.feeds.set h f } := rfl
@[simp] theorem State.setFeed_links (s : State) (h : Head) (f : Feed) : (s.setFeed h f).links = s.links := rfl
@[simp] theorem State.setFeed_channels (s : State) (h : Head) (f : Feed) : (s.setFeed h f).channels = s.channels := rfl
@[simp] theorem State.setFeed_bond (s : State) (h : Head) (f : Feed) : (s.setFeed h f).bond = s.bond := rfl
@[simp] theorem State.setFeed_tracker (s : State) (h : Head) (f : Feed) : (s.setFeed h f).tracker = s.tracker := rfl
@[simp] theorem State.setFeed_pull (s : State) (h : Head) (f : Feed) : (s.setFeed h f).pull = s.pull := rfl
@[simp] theorem State.setFeed_hold (s : State) (h : Head) (f : Feed) : (s.setFeed h f).hold = s.hold := rfl
@[simp] theorem State.setFeed_screen (s : State) (h : Head) (f : Feed) : (s.setFeed h f).screen = s.screen := rfl
@[simp] theorem State.setFeed_pending (s : State) (h : Head) (f : Feed) : (s.setFeed h f).pending = s.pending := rfl

/-! ### setCapture -/

@[simp] theorem State.setCapture_ports (s : State) (h : Head) (c : BondCapture) : (s.setCapture h c).ports = s.ports := rfl
@[simp] theorem State.setCapture_programs (s : State) (h : Head) (c : BondCapture) : (s.setCapture h c).programs = s.programs := rfl
@[simp] theorem State.setCapture_map (s : State) (h : Head) (c : BondCapture) : (s.setCapture h c).map = s.map := rfl
@[simp] theorem State.setCapture_issuer (s : State) (h : Head) (c : BondCapture) : (s.setCapture h c).issuer = s.issuer := rfl
@[simp] theorem State.setCapture_links (s : State) (h : Head) (c : BondCapture) : (s.setCapture h c).links = s.links := rfl
@[simp] theorem State.setCapture_channels (s : State) (h : Head) (c : BondCapture) : (s.setCapture h c).channels = s.channels := rfl
@[simp] theorem State.setCapture_bond (s : State) (h : Head) (c : BondCapture) : (s.setCapture h c).bond = s.bond.set h c := rfl
@[simp] theorem State.setCapture_tracker (s : State) (h : Head) (c : BondCapture) : (s.setCapture h c).tracker = s.tracker := rfl
@[simp] theorem State.setCapture_pull (s : State) (h : Head) (c : BondCapture) : (s.setCapture h c).pull = s.pull := rfl
@[simp] theorem State.setCapture_hold (s : State) (h : Head) (c : BondCapture) : (s.setCapture h c).hold = s.hold := rfl
@[simp] theorem State.setCapture_screen (s : State) (h : Head) (c : BondCapture) : (s.setCapture h c).screen = s.screen := rfl
@[simp] theorem State.setCapture_pending (s : State) (h : Head) (c : BondCapture) : (s.setCapture h c).pending = s.pending := rfl

/-! ### setLink -/

@[simp] theorem State.setLink_ports (s : State) (l : Link) (r : Receiver) : (s.setLink l r).ports = s.ports := rfl
@[simp] theorem State.setLink_programs (s : State) (l : Link) (r : Receiver) : (s.setLink l r).programs = s.programs := rfl
@[simp] theorem State.setLink_map (s : State) (l : Link) (r : Receiver) : (s.setLink l r).map = s.map := rfl
@[simp] theorem State.setLink_issuer (s : State) (l : Link) (r : Receiver) : (s.setLink l r).issuer = s.issuer := rfl
@[simp] theorem State.setLink_links (s : State) (l : Link) (r : Receiver) : (s.setLink l r).links = s.links.set l r := rfl
@[simp] theorem State.setLink_channels (s : State) (l : Link) (r : Receiver) : (s.setLink l r).channels = s.channels := rfl
@[simp] theorem State.setLink_bond (s : State) (l : Link) (r : Receiver) : (s.setLink l r).bond = s.bond := rfl
@[simp] theorem State.setLink_tracker (s : State) (l : Link) (r : Receiver) : (s.setLink l r).tracker = s.tracker := rfl
@[simp] theorem State.setLink_pull (s : State) (l : Link) (r : Receiver) : (s.setLink l r).pull = s.pull := rfl
@[simp] theorem State.setLink_hold (s : State) (l : Link) (r : Receiver) : (s.setLink l r).hold = s.hold := rfl
@[simp] theorem State.setLink_screen (s : State) (l : Link) (r : Receiver) : (s.setLink l r).screen = s.screen := rfl
@[simp] theorem State.setLink_pending (s : State) (l : Link) (r : Receiver) : (s.setLink l r).pending = s.pending := rfl

/-! ### setChan -/

@[simp] theorem State.setChan_ports (s : State) (c : ChanId) (x : Channel) : (s.setChan c x).ports = s.ports := rfl
@[simp] theorem State.setChan_programs (s : State) (c : ChanId) (x : Channel) : (s.setChan c x).programs = s.programs := rfl
@[simp] theorem State.setChan_map (s : State) (c : ChanId) (x : Channel) : (s.setChan c x).map = s.map := rfl
@[simp] theorem State.setChan_issuer (s : State) (c : ChanId) (x : Channel) : (s.setChan c x).issuer = s.issuer := rfl
@[simp] theorem State.setChan_links (s : State) (c : ChanId) (x : Channel) : (s.setChan c x).links = s.links := rfl
@[simp] theorem State.setChan_channels (s : State) (c : ChanId) (x : Channel) : (s.setChan c x).channels = s.channels.set c x := rfl
@[simp] theorem State.setChan_bond (s : State) (c : ChanId) (x : Channel) : (s.setChan c x).bond = s.bond := rfl
@[simp] theorem State.setChan_tracker (s : State) (c : ChanId) (x : Channel) : (s.setChan c x).tracker = s.tracker := rfl
@[simp] theorem State.setChan_pull (s : State) (c : ChanId) (x : Channel) : (s.setChan c x).pull = s.pull := rfl
@[simp] theorem State.setChan_hold (s : State) (c : ChanId) (x : Channel) : (s.setChan c x).hold = s.hold := rfl
@[simp] theorem State.setChan_screen (s : State) (c : ChanId) (x : Channel) : (s.setChan c x).screen = s.screen := rfl
@[simp] theorem State.setChan_pending (s : State) (c : ChanId) (x : Channel) : (s.setChan c x).pending = s.pending := rfl

/-! ### setProgram -/

@[simp] theorem State.setProgram_ports (s : State) (i : Nat) (q : Option Program) : (s.setProgram i q).ports = s.ports := rfl
@[simp] theorem State.setProgram_programs (s : State) (i : Nat) (q : Option Program) : (s.setProgram i q).programs = { s.programs with slots := s.programs.slots.setIfInBounds i q } := rfl
@[simp] theorem State.setProgram_map (s : State) (i : Nat) (q : Option Program) : (s.setProgram i q).map = s.map := rfl
@[simp] theorem State.setProgram_issuer (s : State) (i : Nat) (q : Option Program) : (s.setProgram i q).issuer = s.issuer := rfl
@[simp] theorem State.setProgram_links (s : State) (i : Nat) (q : Option Program) : (s.setProgram i q).links = s.links := rfl
@[simp] theorem State.setProgram_channels (s : State) (i : Nat) (q : Option Program) : (s.setProgram i q).channels = s.channels := rfl
@[simp] theorem State.setProgram_bond (s : State) (i : Nat) (q : Option Program) : (s.setProgram i q).bond = s.bond := rfl
@[simp] theorem State.setProgram_tracker (s : State) (i : Nat) (q : Option Program) : (s.setProgram i q).tracker = s.tracker := rfl
@[simp] theorem State.setProgram_pull (s : State) (i : Nat) (q : Option Program) : (s.setProgram i q).pull = s.pull := rfl
@[simp] theorem State.setProgram_hold (s : State) (i : Nat) (q : Option Program) : (s.setProgram i q).hold = s.hold := rfl
@[simp] theorem State.setProgram_screen (s : State) (i : Nat) (q : Option Program) : (s.setProgram i q).screen = s.screen := rfl
@[simp] theorem State.setProgram_pending (s : State) (i : Nat) (q : Option Program) : (s.setProgram i q).pending = s.pending := rfl

/-! ### setClamp -/

@[simp] theorem State.setClamp_ports (s : State) (c : Clamp) : (s.setClamp c).ports = s.ports := rfl
@[simp] theorem State.setClamp_programs (s : State) (c : Clamp) : (s.setClamp c).programs = s.programs := rfl
@[simp] theorem State.setClamp_map (s : State) (c : Clamp) : (s.setClamp c).map = s.map := rfl
@[simp] theorem State.setClamp_issuer (s : State) (c : Clamp) : (s.setClamp c).issuer = s.issuer := rfl
@[simp] theorem State.setClamp_links (s : State) (c : Clamp) : (s.setClamp c).links = s.links := rfl
@[simp] theorem State.setClamp_channels (s : State) (c : Clamp) : (s.setClamp c).channels = s.channels := rfl
@[simp] theorem State.setClamp_bond (s : State) (c : Clamp) : (s.setClamp c).bond = s.bond := rfl
@[simp] theorem State.setClamp_tracker (s : State) (c : Clamp) : (s.setClamp c).tracker = { s.tracker with clamp := c } := rfl
@[simp] theorem State.setClamp_pull (s : State) (c : Clamp) : (s.setClamp c).pull = s.pull := rfl
@[simp] theorem State.setClamp_hold (s : State) (c : Clamp) : (s.setClamp c).hold = s.hold := rfl
@[simp] theorem State.setClamp_screen (s : State) (c : Clamp) : (s.setClamp c).screen = s.screen := rfl
@[simp] theorem State.setClamp_pending (s : State) (c : Clamp) : (s.setClamp c).pending = s.pending := rfl

/-! ### setHoldin -/

@[simp] theorem State.setHoldin_ports (s : State) (b : Bool) : (s.setHoldin b).ports = s.ports := rfl
@[simp] theorem State.setHoldin_programs (s : State) (b : Bool) : (s.setHoldin b).programs = s.programs := rfl
@[simp] theorem State.setHoldin_map (s : State) (b : Bool) : (s.setHoldin b).map = s.map := rfl
@[simp] theorem State.setHoldin_issuer (s : State) (b : Bool) : (s.setHoldin b).issuer = s.issuer := rfl
@[simp] theorem State.setHoldin_links (s : State) (b : Bool) : (s.setHoldin b).links = s.links := rfl
@[simp] theorem State.setHoldin_channels (s : State) (b : Bool) : (s.setHoldin b).channels = s.channels := rfl
@[simp] theorem State.setHoldin_bond (s : State) (b : Bool) : (s.setHoldin b).bond = s.bond := rfl
@[simp] theorem State.setHoldin_tracker (s : State) (b : Bool) : (s.setHoldin b).tracker = s.tracker := rfl
@[simp] theorem State.setHoldin_pull (s : State) (b : Bool) : (s.setHoldin b).pull = s.pull := rfl
@[simp] theorem State.setHoldin_hold (s : State) (b : Bool) : (s.setHoldin b).hold = { s.hold with holdin := b } := rfl
@[simp] theorem State.setHoldin_screen (s : State) (b : Bool) : (s.setHoldin b).screen = s.screen := rfl
@[simp] theorem State.setHoldin_pending (s : State) (b : Bool) : (s.setHoldin b).pending = s.pending := rfl

/-! ### onMap -/

@[simp] theorem State.onMap_ports (s : State) (f : StripMap → StripMap) : (s.onMap f).ports = s.ports := rfl
@[simp] theorem State.onMap_programs (s : State) (f : StripMap → StripMap) : (s.onMap f).programs = s.programs := rfl
@[simp] theorem State.onMap_map (s : State) (f : StripMap → StripMap) : (s.onMap f).map = s.map.map f := rfl
@[simp] theorem State.onMap_issuer (s : State) (f : StripMap → StripMap) : (s.onMap f).issuer = s.issuer := rfl
@[simp] theorem State.onMap_links (s : State) (f : StripMap → StripMap) : (s.onMap f).links = s.links := rfl
@[simp] theorem State.onMap_channels (s : State) (f : StripMap → StripMap) : (s.onMap f).channels = s.channels := rfl
@[simp] theorem State.onMap_bond (s : State) (f : StripMap → StripMap) : (s.onMap f).bond = s.bond := rfl
@[simp] theorem State.onMap_tracker (s : State) (f : StripMap → StripMap) : (s.onMap f).tracker = s.tracker := rfl
@[simp] theorem State.onMap_pull (s : State) (f : StripMap → StripMap) : (s.onMap f).pull = s.pull := rfl
@[simp] theorem State.onMap_hold (s : State) (f : StripMap → StripMap) : (s.onMap f).hold = s.hold := rfl
@[simp] theorem State.onMap_screen (s : State) (f : StripMap → StripMap) : (s.onMap f).screen = s.screen := rfl
@[simp] theorem State.onMap_pending (s : State) (f : StripMap → StripMap) : (s.onMap f).pending = s.pending := rfl

/-! ### One of several -/

@[simp] theorem PerHead.get_set_self {α : Type} (x : PerHead α) (i : Head) (v : α) : (x.set i v).get i = v := by
  cases i <;> rfl
theorem PerHead.get_set_other {α : Type} (x : PerHead α) {i j : Head} (v : α) (h : j ≠ i) : (x.set i v).get j = x.get j := by
  cases i <;> cases j <;> first | rfl | exact absurd rfl h
theorem PerHead.get_set {α : Type} (x : PerHead α) (i j : Head) (v : α) : (x.set i v).get j = if j = i then v else x.get j := by
  cases i <;> cases j <;> rfl
@[simp] theorem PerHead.set_set {α : Type} (x : PerHead α) (i : Head) (v w : α) : (x.set i v).set i w = x.set i w := by
  cases i <;> rfl

@[simp] theorem PerPort.get_set_self {α : Type} (x : PerPort α) (i : PortId) (v : α) : (x.set i v).get i = v := by
  cases i <;> rfl
theorem PerPort.get_set_other {α : Type} (x : PerPort α) {i j : PortId} (v : α) (h : j ≠ i) : (x.set i v).get j = x.get j := by
  cases i <;> cases j <;> first | rfl | exact absurd rfl h
theorem PerPort.get_set {α : Type} (x : PerPort α) (i j : PortId) (v : α) : (x.set i v).get j = if j = i then v else x.get j := by
  cases i <;> cases j <;> rfl
@[simp] theorem PerPort.set_set {α : Type} (x : PerPort α) (i : PortId) (v w : α) : (x.set i v).set i w = x.set i w := by
  cases i <;> rfl

@[simp] theorem PerLink.get_set_self {α : Type} (x : PerLink α) (i : Link) (v : α) : (x.set i v).get i = v := by
  cases i <;> rfl
theorem PerLink.get_set_other {α : Type} (x : PerLink α) {i j : Link} (v : α) (h : j ≠ i) : (x.set i v).get j = x.get j := by
  cases i <;> cases j <;> first | rfl | exact absurd rfl h
theorem PerLink.get_set {α : Type} (x : PerLink α) (i j : Link) (v : α) : (x.set i v).get j = if j = i then v else x.get j := by
  cases i <;> cases j <;> rfl
@[simp] theorem PerLink.set_set {α : Type} (x : PerLink α) (i : Link) (v w : α) : (x.set i v).set i w = x.set i w := by
  cases i <;> rfl

@[simp] theorem PerChan.get_set_self {α : Type} (x : PerChan α) (i : ChanId) (v : α) : (x.set i v).get i = v := by
  cases i <;> rfl
theorem PerChan.get_set_other {α : Type} (x : PerChan α) {i j : ChanId} (v : α) (h : j ≠ i) : (x.set i v).get j = x.get j := by
  cases i <;> cases j <;> first | rfl | exact absurd rfl h
theorem PerChan.get_set {α : Type} (x : PerChan α) (i j : ChanId) (v : α) : (x.set i v).get j = if j = i then v else x.get j := by
  cases i <;> cases j <;> rfl
@[simp] theorem PerChan.set_set {α : Type} (x : PerChan α) (i : ChanId) (v w : α) : (x.set i v).set i w = x.set i w := by
  cases i <;> rfl

/-! ### The entries of the state through its updates -/

theorem State.port_setPort (s : State) (p q : PortId) (x : Port) : (s.setPort p x).port q = if q = p then x else s.port q :=
  PerPort.get_set ..
theorem State.feed_setFeed (s : State) (h k : Head) (f : Feed) : (s.setFeed h f).feed k = if k = h then f else s.feed k :=
  PerHead.get_set ..
theorem State.capture_setCapture (s : State) (h k : Head) (c : BondCapture) :
    (s.setCapture h c).capture k = if k = h then c else s.capture k := PerHead.get_set ..
theorem State.link_setLink (s : State) (l k : Link) (r : Receiver) : (s.setLink l r).link k = if k = l then r else s.link k :=
  PerLink.get_set ..
theorem State.chan_setChan (s : State) (c k : ChanId) (x : Channel) : (s.setChan c x).chan k = if k = c then x else s.chan k :=
  PerChan.get_set ..
@[simp] theorem State.port_setPort_self (s : State) (p : PortId) (x : Port) : (s.setPort p x).port p = x := by
  simp [State.port_setPort]
@[simp] theorem State.feed_setFeed_self (s : State) (h : Head) (f : Feed) : (s.setFeed h f).feed h = f := by
  simp [State.feed_setFeed]
@[simp] theorem State.capture_setCapture_self (s : State) (h : Head) (c : BondCapture) : (s.setCapture h c).capture h = c := by
  simp [State.capture_setCapture]
@[simp] theorem State.link_setLink_self (s : State) (l : Link) (r : Receiver) : (s.setLink l r).link l = r := by
  simp [State.link_setLink]
@[simp] theorem State.chan_setChan_self (s : State) (c : ChanId) (x : Channel) : (s.setChan c x).chan c = x := by
  simp [State.chan_setChan]
@[simp] theorem State.setPort_setPort (s : State) (p : PortId) (x y : Port) : (s.setPort p x).setPort p y = s.setPort p y := by
  simp [State.setPort]
@[simp] theorem State.setLink_setLink (s : State) (l : Link) (x y : Receiver) : (s.setLink l x).setLink l y = s.setLink l y := by
  cases l <;> rfl
@[simp] theorem State.setLink_link (s : State) (l : Link) : s.setLink l (s.link l) = s := by cases l <;> rfl
@[simp] theorem State.setPort_port (s : State) (p : PortId) : s.setPort p (s.port p) = s := by cases p <;> rfl
@[simp] theorem head_port_head (h : Head) : h.port.head? = some h := by cases h <;> rfl
@[simp] theorem head_other_ne (h : Head) : h.other ≠ h := by cases h <;> decide

end Sys2Proof.Machine
end

