-- ==== Sys2Proof/Laws/Ops.lean ====
section
/-! SUPPORT. What each shared operation leaves as it was: one lemma for each operation and each field it does not touch. -/

set_option Elab.async false
set_option linter.all false

namespace Sys2Proof.Machine

@[simp] theorem State.emptyChan_ports (s : State) (c : ChanId) : (s.emptyChan c).ports = s.ports := by
  unfold State.emptyChan; (try dsimp only); (repeat' split) <;> simp
@[simp] theorem State.emptyChan_programs (s : State) (c : ChanId) : (s.emptyChan c).programs = s.programs := by
  unfold State.emptyChan; (try dsimp only); (repeat' split) <;> simp
@[simp] theorem State.emptyChan_map (s : State) (c : ChanId) : (s.emptyChan c).map = s.map := by
  unfold State.emptyChan; (try dsimp only); (repeat' split) <;> simp
@[simp] theorem State.emptyChan_issuer (s : State) (c : ChanId) : (s.emptyChan c).issuer = s.issuer := by
  unfold State.emptyChan; (try dsimp only); (repeat' split) <;> simp
@[simp] theorem State.emptyChan_links (s : State) (c : ChanId) : (s.emptyChan c).links = s.links := by
  unfold State.emptyChan; (try dsimp only); (repeat' split) <;> simp
@[simp] theorem State.emptyChan_bond (s : State) (c : ChanId) : (s.emptyChan c).bond = s.bond := by
  unfold State.emptyChan; (try dsimp only); (repeat' split) <;> simp
@[simp] theorem State.emptyChan_tracker (s : State) (c : ChanId) : (s.emptyChan c).tracker = s.tracker := by
  unfold State.emptyChan; (try dsimp only); (repeat' split) <;> simp
@[simp] theorem State.emptyChan_pull (s : State) (c : ChanId) : (s.emptyChan c).pull = s.pull := by
  unfold State.emptyChan; (try dsimp only); (repeat' split) <;> simp
@[simp] theorem State.emptyChan_hold (s : State) (c : ChanId) : (s.emptyChan c).hold = s.hold := by
  unfold State.emptyChan; (try dsimp only); (repeat' split) <;> simp
@[simp] theorem State.emptyChan_screen (s : State) (c : ChanId) : (s.emptyChan c).screen = s.screen := by
  unfold State.emptyChan; (try dsimp only); (repeat' split) <;> simp
@[simp] theorem State.emptyChan_pending (s : State) (c : ChanId) : (s.emptyChan c).pending = s.pending := by
  unfold State.emptyChan; (try dsimp only); (repeat' split) <;> simp

@[simp] theorem State.emptyHead_ports (s : State) (h : Head) : (s.emptyHead h).ports = s.ports := by
  unfold State.emptyHead; (try dsimp only); (repeat' split) <;> simp
@[simp] theorem State.emptyHead_programs (s : State) (h : Head) : (s.emptyHead h).programs = s.programs := by
  unfold State.emptyHead; (try dsimp only); (repeat' split) <;> simp
@[simp] theorem State.emptyHead_map (s : State) (h : Head) : (s.emptyHead h).map = s.map := by
  unfold State.emptyHead; (try dsimp only); (repeat' split) <;> simp
@[simp] theorem State.emptyHead_issuer (s : State) (h : Head) : (s.emptyHead h).issuer = s.issuer := by
  unfold State.emptyHead; (try dsimp only); (repeat' split) <;> simp
@[simp] theorem State.emptyHead_links (s : State) (h : Head) : (s.emptyHead h).links = s.links := by
  unfold State.emptyHead; (try dsimp only); (repeat' split) <;> simp
@[simp] theorem State.emptyHead_bond (s : State) (h : Head) : (s.emptyHead h).bond = s.bond := by
  unfold State.emptyHead; (try dsimp only); (repeat' split) <;> simp
@[simp] theorem State.emptyHead_tracker (s : State) (h : Head) : (s.emptyHead h).tracker = s.tracker := by
  unfold State.emptyHead; (try dsimp only); (repeat' split) <;> simp
@[simp] theorem State.emptyHead_pull (s : State) (h : Head) : (s.emptyHead h).pull = s.pull := by
  unfold State.emptyHead; (try dsimp only); (repeat' split) <;> simp
@[simp] theorem State.emptyHead_hold (s : State) (h : Head) : (s.emptyHead h).hold = s.hold := by
  unfold State.emptyHead; (try dsimp only); (repeat' split) <;> simp
@[simp] theorem State.emptyHead_screen (s : State) (h : Head) : (s.emptyHead h).screen = s.screen := by
  unfold State.emptyHead; (try dsimp only); (repeat' split) <;> simp
@[simp] theorem State.emptyHead_pending (s : State) (h : Head) : (s.emptyHead h).pending = s.pending := by
  unfold State.emptyHead; (try dsimp only); (repeat' split) <;> simp

@[simp] theorem State.post_programs (s : State) (p : PortId) (n : Notice) : (s.post p n).programs = s.programs := by
  unfold State.post; (try dsimp only); (repeat' split) <;> simp
@[simp] theorem State.post_map (s : State) (p : PortId) (n : Notice) : (s.post p n).map = s.map := by
  unfold State.post; (try dsimp only); (repeat' split) <;> simp
@[simp] theorem State.post_issuer (s : State) (p : PortId) (n : Notice) : (s.post p n).issuer = s.issuer := by
  unfold State.post; (try dsimp only); (repeat' split) <;> simp
@[simp] theorem State.post_links (s : State) (p : PortId) (n : Notice) : (s.post p n).links = s.links := by
  unfold State.post; (try dsimp only); (repeat' split) <;> simp
@[simp] theorem State.post_channels (s : State) (p : PortId) (n : Notice) : (s.post p n).channels = s.channels := by
  unfold State.post; (try dsimp only); (repeat' split) <;> simp
@[simp] theorem State.post_bond (s : State) (p : PortId) (n : Notice) : (s.post p n).bond = s.bond := by
  unfold State.post; (try dsimp only); (repeat' split) <;> simp
@[simp] theorem State.post_tracker (s : State) (p : PortId) (n : Notice) : (s.post p n).tracker = s.tracker := by
  unfold State.post; (try dsimp only); (repeat' split) <;> simp
@[simp] theorem State.post_pull (s : State) (p : PortId) (n : Notice) : (s.post p n).pull = s.pull := by
  unfold State.post; (try dsimp only); (repeat' split) <;> simp
@[simp] theorem State.post_hold (s : State) (p : PortId) (n : Notice) : (s.post p n).hold = s.hold := by
  unfold State.post; (try dsimp only); (repeat' split) <;> simp
@[simp] theorem State.post_screen (s : State) (p : PortId) (n : Notice) : (s.post p n).screen = s.screen := by
  unfold State.post; (try dsimp only); (repeat' split) <;> simp
@[simp] theorem State.post_pending (s : State) (p : PortId) (n : Notice) : (s.post p n).pending = s.pending := by
  unfold State.post; (try dsimp only); (repeat' split) <;> simp

@[simp] theorem State.postAll_programs (s : State) (n : Notice) : (s.postAll n).programs = s.programs := rfl
@[simp] theorem State.postAll_map (s : State) (n : Notice) : (s.postAll n).map = s.map := rfl
@[simp] theorem State.postAll_issuer (s : State) (n : Notice) : (s.postAll n).issuer = s.issuer := rfl
@[simp] theorem State.postAll_links (s : State) (n : Notice) : (s.postAll n).links = s.links := rfl
@[simp] theorem State.postAll_channels (s : State) (n : Notice) : (s.postAll n).channels = s.channels := rfl
@[simp] theorem State.postAll_bond (s : State) (n : Notice) : (s.postAll n).bond = s.bond := rfl
@[simp] theorem State.postAll_tracker (s : State) (n : Notice) : (s.postAll n).tracker = s.tracker := rfl
@[simp] theorem State.postAll_pull (s : State) (n : Notice) : (s.postAll n).pull = s.pull := rfl
@[simp] theorem State.postAll_hold (s : State) (n : Notice) : (s.postAll n).hold = s.hold := rfl
@[simp] theorem State.postAll_screen (s : State) (n : Notice) : (s.postAll n).screen = s.screen := rfl
@[simp] theorem State.postAll_pending (s : State) (n : Notice) : (s.postAll n).pending = s.pending := rfl

@[simp] theorem State.postHold_programs (s : State) (c : Nat) (x y : Reasons) : (s.postHold c x y).programs = s.programs := by
  unfold State.postHold; (try dsimp only); (repeat' split) <;> simp
@[simp] theorem State.postHold_map (s : State) (c : Nat) (x y : Reasons) : (s.postHold c x y).map = s.map := by
  unfold State.postHold; (try dsimp only); (repeat' split) <;> simp
@[simp] theorem State.postHold_issuer (s : State) (c : Nat) (x y : Reasons) : (s.postHold c x y).issuer = s.issuer := by
  unfold State.postHold; (try dsimp only); (repeat' split) <;> simp
@[simp] theorem State.postHold_links (s : State) (c : Nat) (x y : Reasons) : (s.postHold c x y).links = s.links := by
  unfold State.postHold; (try dsimp only); (repeat' split) <;> simp
@[simp] theorem State.postHold_channels (s : State) (c : Nat) (x y : Reasons) : (s.postHold c x y).channels = s.channels := by
  unfold State.postHold; (try dsimp only); (repeat' split) <;> simp
@[simp] theorem State.postHold_bond (s : State) (c : Nat) (x y : Reasons) : (s.postHold c x y).bond = s.bond := by
  unfold State.postHold; (try dsimp only); (repeat' split) <;> simp
@[simp] theorem State.postHold_tracker (s : State) (c : Nat) (x y : Reasons) : (s.postHold c x y).tracker = s.tracker := by
  unfold State.postHold; (try dsimp only); (repeat' split) <;> simp
@[simp] theorem State.postHold_pull (s : State) (c : Nat) (x y : Reasons) : (s.postHold c x y).pull = s.pull := by
  unfold State.postHold; (try dsimp only); (repeat' split) <;> simp
@[simp] theorem State.postHold_hold (s : State) (c : Nat) (x y : Reasons) : (s.postHold c x y).hold = s.hold := by
  unfold State.postHold; (try dsimp only); (repeat' split) <;> simp
@[simp] theorem State.postHold_screen (s : State) (c : Nat) (x y : Reasons) : (s.postHold c x y).screen = s.screen := by
  unfold State.postHold; (try dsimp only); (repeat' split) <;> simp
@[simp] theorem State.postHold_pending (s : State) (c : Nat) (x y : Reasons) : (s.postHold c x y).pending = s.pending := by
  unfold State.postHold; (try dsimp only); (repeat' split) <;> simp

@[simp] theorem State.respond_programs (s : State) (p : PortId) (r : CmdResult) (d : Nat) (l : List Byte) : (s.respond p r d l).programs = s.programs := by
  unfold State.respond; (try dsimp only); (repeat' split) <;> simp
@[simp] theorem State.respond_map (s : State) (p : PortId) (r : CmdResult) (d : Nat) (l : List Byte) : (s.respond p r d l).map = s.map := by
  unfold State.respond; (try dsimp only); (repeat' split) <;> simp
@[simp] theorem State.respond_issuer (s : State) (p : PortId) (r : CmdResult) (d : Nat) (l : List Byte) : (s.respond p r d l).issuer = s.issuer := by
  unfold State.respond; (try dsimp only); (repeat' split) <;> simp
@[simp] theorem State.respond_links (s : State) (p : PortId) (r : CmdResult) (d : Nat) (l : List Byte) : (s.respond p r d l).links = s.links := by
  unfold State.respond; (try dsimp only); (repeat' split) <;> simp
@[simp] theorem State.respond_channels (s : State) (p : PortId) (r : CmdResult) (d : Nat) (l : List Byte) : (s.respond p r d l).channels = s.channels := by
  unfold State.respond; (try dsimp only); (repeat' split) <;> simp
@[simp] theorem State.respond_bond (s : State) (p : PortId) (r : CmdResult) (d : Nat) (l : List Byte) : (s.respond p r d l).bond = s.bond := by
  unfold State.respond; (try dsimp only); (repeat' split) <;> simp
@[simp] theorem State.respond_tracker (s : State) (p : PortId) (r : CmdResult) (d : Nat) (l : List Byte) : (s.respond p r d l).tracker = s.tracker := by
  unfold State.respond; (try dsimp only); (repeat' split) <;> simp
@[simp] theorem State.respond_pull (s : State) (p : PortId) (r : CmdResult) (d : Nat) (l : List Byte) : (s.respond p r d l).pull = s.pull := by
  unfold State.respond; (try dsimp only); (repeat' split) <;> simp
@[simp] theorem State.respond_hold (s : State) (p : PortId) (r : CmdResult) (d : Nat) (l : List Byte) : (s.respond p r d l).hold = s.hold := by
  unfold State.respond; (try dsimp only); (repeat' split) <;> simp
@[simp] theorem State.respond_screen (s : State) (p : PortId) (r : CmdResult) (d : Nat) (l : List Byte) : (s.respond p r d l).screen = s.screen := by
  unfold State.respond; (try dsimp only); (repeat' split) <;> simp
@[simp] theorem State.respond_pending (s : State) (p : PortId) (r : CmdResult) (d : Nat) (l : List Byte) : (s.respond p r d l).pending = s.pending := by
  unfold State.respond; (try dsimp only); (repeat' split) <;> simp

@[simp] theorem State.refuse_programs (s : State) (p : PortId) (r : CmdResult) : (s.refuse p r).programs = s.programs := by
  unfold State.refuse; (try dsimp only); (repeat' split) <;> simp
@[simp] theorem State.refuse_map (s : State) (p : PortId) (r : CmdResult) : (s.refuse p r).map = s.map := by
  unfold State.refuse; (try dsimp only); (repeat' split) <;> simp
@[simp] theorem State.refuse_issuer (s : State) (p : PortId) (r : CmdResult) : (s.refuse p r).issuer = s.issuer := by
  unfold State.refuse; (try dsimp only); (repeat' split) <;> simp
@[simp] theorem State.refuse_links (s : State) (p : PortId) (r : CmdResult) : (s.refuse p r).links = s.links := by
  unfold State.refuse; (try dsimp only); (repeat' split) <;> simp
@[simp] theorem State.refuse_channels (s : State) (p : PortId) (r : CmdResult) : (s.refuse p r).channels = s.channels := by
  unfold State.refuse; (try dsimp only); (repeat' split) <;> simp
@[simp] theorem State.refuse_bond (s : State) (p : PortId) (r : CmdResult) : (s.refuse p r).bond = s.bond := by
  unfold State.refuse; (try dsimp only); (repeat' split) <;> simp
@[simp] theorem State.refuse_tracker (s : State) (p : PortId) (r : CmdResult) : (s.refuse p r).tracker = s.tracker := by
  unfold State.refuse; (try dsimp only); (repeat' split) <;> simp
@[simp] theorem State.refuse_pull (s : State) (p : PortId) (r : CmdResult) : (s.refuse p r).pull = s.pull := by
  unfold State.refuse; (try dsimp only); (repeat' split) <;> simp
@[simp] theorem State.refuse_hold (s : State) (p : PortId) (r : CmdResult) : (s.refuse p r).hold = s.hold := by
  unfold State.refuse; (try dsimp only); (repeat' split) <;> simp
@[simp] theorem State.refuse_screen (s : State) (p : PortId) (r : CmdResult) : (s.refuse p r).screen = s.screen := by
  unfold State.refuse; (try dsimp only); (repeat' split) <;> simp
@[simp] theorem State.refuse_pending (s : State) (p : PortId) (r : CmdResult) : (s.refuse p r).pending = s.pending := by
  unfold State.refuse; (try dsimp only); (repeat' split) <;> simp

@[simp] theorem State.refuseState_programs (s : State) (p : PortId) (w : SubReason) : (s.refuseState p w).programs = s.programs := by
  unfold State.refuseState; (try dsimp only); (repeat' split) <;> simp
@[simp] theorem State.refuseState_map (s : State) (p : PortId) (w : SubReason) : (s.refuseState p w).map = s.map := by
  unfold State.refuseState; (try dsimp only); (repeat' split) <;> simp
@[simp] theorem State.refuseState_issuer (s : State) (p : PortId) (w : SubReason) : (s.refuseState p w).issuer = s.issuer := by
  unfold State.refuseState; (try dsimp only); (repeat' split) <;> simp
@[simp] theorem State.refuseState_links (s : State) (p : PortId) (w : SubReason) : (s.refuseState p w).links = s.links := by
  unfold State.refuseState; (try dsimp only); (repeat' split) <;> simp
@[simp] theorem State.refuseState_channels (s : State) (p : PortId) (w : SubReason) : (s.refuseState p w).channels = s.channels := by
  unfold State.refuseState; (try dsimp only); (repeat' split) <;> simp
@[simp] theorem State.refuseState_bond (s : State) (p : PortId) (w : SubReason) : (s.refuseState p w).bond = s.bond := by
  unfold State.refuseState; (try dsimp only); (repeat' split) <;> simp
@[simp] theorem State.refuseState_tracker (s : State) (p : PortId) (w : SubReason) : (s.refuseState p w).tracker = s.tracker := by
  unfold State.refuseState; (try dsimp only); (repeat' split) <;> simp
@[simp] theorem State.refuseState_pull (s : State) (p : PortId) (w : SubReason) : (s.refuseState p w).pull = s.pull := by
  unfold State.refuseState; (try dsimp only); (repeat' split) <;> simp
@[simp] theorem State.refuseState_hold (s : State) (p : PortId) (w : SubReason) : (s.refuseState p w).hold = s.hold := by
  unfold State.refuseState; (try dsimp only); (repeat' split) <;> simp
@[simp] theorem State.refuseState_screen (s : State) (p : PortId) (w : SubReason) : (s.refuseState p w).screen = s.screen := by
  unfold State.refuseState; (try dsimp only); (repeat' split) <;> simp
@[simp] theorem State.refuseState_pending (s : State) (p : PortId) (w : SubReason) : (s.refuseState p w).pending = s.pending := by
  unfold State.refuseState; (try dsimp only); (repeat' split) <;> simp

@[simp] theorem State.addReason_programs (s : State) (c : Nat) (r : Reason) : (s.addReason c r).programs = s.programs := by
  unfold State.addReason; (try dsimp only); (repeat' split) <;> simp
@[simp] theorem State.addReason_map (s : State) (c : Nat) (r : Reason) : (s.addReason c r).map = s.map := by
  unfold State.addReason; (try dsimp only); (repeat' split) <;> simp
@[simp] theorem State.addReason_issuer (s : State) (c : Nat) (r : Reason) : (s.addReason c r).issuer = s.issuer := by
  unfold State.addReason; (try dsimp only); (repeat' split) <;> simp
@[simp] theorem State.addReason_links (s : State) (c : Nat) (r : Reason) : (s.addReason c r).links = s.links := by
  unfold State.addReason; (try dsimp only); (repeat' split) <;> simp
@[simp] theorem State.addReason_channels (s : State) (c : Nat) (r : Reason) : (s.addReason c r).channels = s.channels := by
  unfold State.addReason; (try dsimp only); (repeat' split) <;> simp
@[simp] theorem State.addReason_bond (s : State) (c : Nat) (r : Reason) : (s.addReason c r).bond = s.bond := by
  unfold State.addReason; (try dsimp only); (repeat' split) <;> simp
@[simp] theorem State.addReason_tracker (s : State) (c : Nat) (r : Reason) : (s.addReason c r).tracker = s.tracker := by
  unfold State.addReason; (try dsimp only); (repeat' split) <;> simp
@[simp] theorem State.addReason_pull (s : State) (c : Nat) (r : Reason) : (s.addReason c r).pull = s.pull := by
  unfold State.addReason; (try dsimp only); (repeat' split) <;> simp
@[simp] theorem State.addReason_screen (s : State) (c : Nat) (r : Reason) : (s.addReason c r).screen = s.screen := by
  unfold State.addReason; (try dsimp only); (repeat' split) <;> simp
@[simp] theorem State.addReason_pending (s : State) (c : Nat) (r : Reason) : (s.addReason c r).pending = s.pending := by
  unfold State.addReason; (try dsimp only); (repeat' split) <;> simp

@[simp] theorem State.removeReasons_programs (s : State) (c : Nat) (r : Reasons) : (s.removeReasons c r).programs = s.programs := by
  unfold State.removeReasons; (try dsimp only); (repeat' split) <;> simp
@[simp] theorem State.removeReasons_map (s : State) (c : Nat) (r : Reasons) : (s.removeReasons c r).map = s.map := by
  unfold State.removeReasons; (try dsimp only); (repeat' split) <;> simp
@[simp] theorem State.removeReasons_issuer (s : State) (c : Nat) (r : Reasons) : (s.removeReasons c r).issuer = s.issuer := by
  unfold State.removeReasons; (try dsimp only); (repeat' split) <;> simp
@[simp] theorem State.removeReasons_links (s : State) (c : Nat) (r : Reasons) : (s.removeReasons c r).links = s.links := by
  unfold State.removeReasons; (try dsimp only); (repeat' split) <;> simp
@[simp] theorem State.removeReasons_channels (s : State) (c : Nat) (r : Reasons) : (s.removeReasons c r).channels = s.channels := by
  unfold State.removeReasons; (try dsimp only); (repeat' split) <;> simp
@[simp] theorem State.removeReasons_bond (s : State) (c : Nat) (r : Reasons) : (s.removeReasons c r).bond = s.bond := by
  unfold State.removeReasons; (try dsimp only); (repeat' split) <;> simp
@[simp] theorem State.removeReasons_tracker (s : State) (c : Nat) (r : Reasons) : (s.removeReasons c r).tracker = s.tracker := by
  unfold State.removeReasons; (try dsimp only); (repeat' split) <;> simp
@[simp] theorem State.removeReasons_pull (s : State) (c : Nat) (r : Reasons) : (s.removeReasons c r).pull = s.pull := by
  unfold State.removeReasons; (try dsimp only); (repeat' split) <;> simp
@[simp] theorem State.removeReasons_screen (s : State) (c : Nat) (r : Reasons) : (s.removeReasons c r).screen = s.screen := by
  unfold State.removeReasons; (try dsimp only); (repeat' split) <;> simp
@[simp] theorem State.removeReasons_pending (s : State) (c : Nat) (r : Reasons) : (s.removeReasons c r).pending = s.pending := by
  unfold State.removeReasons; (try dsimp only); (repeat' split) <;> simp

@[simp] theorem State.askEnable_programs (s : State) : (s.askEnable).programs = s.programs := by
  unfold State.askEnable; (try dsimp only); (repeat' split) <;> simp
@[simp] theorem State.askEnable_map (s : State) : (s.askEnable).map = s.map := by
  unfold State.askEnable; (try dsimp only); (repeat' split) <;> simp
@[simp] theorem State.askEnable_issuer (s : State) : (s.askEnable).issuer = s.issuer := by
  unfold State.askEnable; (try dsimp only); (repeat' split) <;> simp
@[simp] theorem State.askEnable_links (s : State) : (s.askEnable).links = s.links := by
  unfold State.askEnable; (try dsimp only); (repeat' split) <;> simp
@[simp] theorem State.askEnable_channels (s : State) : (s.askEnable).channels = s.channels := by
  unfold State.askEnable; (try dsimp only); (repeat' split) <;> simp
@[simp] theorem State.askEnable_bond (s : State) : (s.askEnable).bond = s.bond := by
  unfold State.askEnable; (try dsimp only); (repeat' split) <;> simp
@[simp] theorem State.askEnable_tracker (s : State) : (s.askEnable).tracker = s.tracker := by
  unfold State.askEnable; (try dsimp only); (repeat' split) <;> simp
@[simp] theorem State.askEnable_pull (s : State) : (s.askEnable).pull = s.pull := by
  unfold State.askEnable; (try dsimp only); (repeat' split) <;> simp
@[simp] theorem State.askEnable_screen (s : State) : (s.askEnable).screen = s.screen := by
  unfold State.askEnable; (try dsimp only); (repeat' split) <;> simp
@[simp] theorem State.askEnable_pending (s : State) : (s.askEnable).pending = s.pending := by
  unfold State.askEnable; (try dsimp only); (repeat' split) <;> simp

@[simp] theorem State.trigger_ports (s : State) : (s.trigger).ports = s.ports := rfl
@[simp] theorem State.trigger_programs (s : State) : (s.trigger).programs = s.programs := rfl
@[simp] theorem State.trigger_map (s : State) : (s.trigger).map = s.map := rfl
@[simp] theorem State.trigger_links (s : State) : (s.trigger).links = s.links := rfl
@[simp] theorem State.trigger_channels (s : State) : (s.trigger).channels = s.channels := rfl
@[simp] theorem State.trigger_bond (s : State) : (s.trigger).bond = s.bond := rfl
@[simp] theorem State.trigger_tracker (s : State) : (s.trigger).tracker = s.tracker := rfl
@[simp] theorem State.trigger_pull (s : State) : (s.trigger).pull = s.pull := rfl
@[simp] theorem State.trigger_hold (s : State) : (s.trigger).hold = s.hold := rfl
@[simp] theorem State.trigger_screen (s : State) : (s.trigger).screen = s.screen := rfl
@[simp] theorem State.trigger_pending (s : State) : (s.trigger).pending = s.pending := rfl

@[simp] theorem State.clearCursors_ports (s : State) : (s.clearCursors).ports = s.ports := rfl
@[simp] theorem State.clearCursors_programs (s : State) : (s.clearCursors).programs = s.programs := rfl
@[simp] theorem State.clearCursors_map (s : State) : (s.clearCursors).map = s.map := rfl
@[simp] theorem State.clearCursors_links (s : State) : (s.clearCursors).links = s.links := rfl
@[simp] theorem State.clearCursors_channels (s : State) : (s.clearCursors).channels = s.channels := rfl
@[simp] theorem State.clearCursors_bond (s : State) : (s.clearCursors).bond = s.bond := rfl
@[simp] theorem State.clearCursors_tracker (s : State) : (s.clearCursors).tracker = s.tracker := rfl
@[simp] theorem State.clearCursors_pull (s : State) : (s.clearCursors).pull = s.pull := rfl
@[simp] theorem State.clearCursors_hold (s : State) : (s.clearCursors).hold = s.hold := rfl
@[simp] theorem State.clearCursors_screen (s : State) : (s.clearCursors).screen = s.screen := rfl
@[simp] theorem State.clearCursors_pending (s : State) : (s.clearCursors).pending = s.pending := rfl

@[simp] theorem State.checkComplete_programs (s : State) : (s.checkComplete).programs = s.programs := by
  unfold State.checkComplete; (try dsimp only); (repeat' split) <;> simp
@[simp] theorem State.checkComplete_issuer (s : State) : (s.checkComplete).issuer = s.issuer := by
  unfold State.checkComplete; (try dsimp only); (repeat' split) <;> simp
@[simp] theorem State.checkComplete_links (s : State) : (s.checkComplete).links = s.links := by
  unfold State.checkComplete; (try dsimp only); (repeat' split) <;> simp
@[simp] theorem State.checkComplete_channels (s : State) : (s.checkComplete).channels = s.channels := by
  unfold State.checkComplete; (try dsimp only); (repeat' split) <;> simp
@[simp] theorem State.checkComplete_bond (s : State) : (s.checkComplete).bond = s.bond := by
  unfold State.checkComplete; (try dsimp only); (repeat' split) <;> simp
@[simp] theorem State.checkComplete_tracker (s : State) : (s.checkComplete).tracker = s.tracker := by
  unfold State.checkComplete; (try dsimp only); (repeat' split) <;> simp
@[simp] theorem State.checkComplete_pull (s : State) : (s.checkComplete).pull = s.pull := by
  unfold State.checkComplete; (try dsimp only); (repeat' split) <;> simp
@[simp] theorem State.checkComplete_hold (s : State) : (s.checkComplete).hold = s.hold := by
  unfold State.checkComplete; (try dsimp only); (repeat' split) <;> simp
@[simp] theorem State.checkComplete_screen (s : State) : (s.checkComplete).screen = s.screen := by
  unfold State.checkComplete; (try dsimp only); (repeat' split) <;> simp
@[simp] theorem State.checkComplete_pending (s : State) : (s.checkComplete).pending = s.pending := by
  unfold State.checkComplete; (try dsimp only); (repeat' split) <;> simp

@[simp] theorem State.checkClamp_programs (s : State) : (s.checkClamp).programs = s.programs := by
  unfold State.checkClamp; (try dsimp only); (repeat' split) <;> simp
@[simp] theorem State.checkClamp_map (s : State) : (s.checkClamp).map = s.map := by
  unfold State.checkClamp; (try dsimp only); (repeat' split) <;> simp
@[simp] theorem State.checkClamp_issuer (s : State) : (s.checkClamp).issuer = s.issuer := by
  unfold State.checkClamp; (try dsimp only); (repeat' split) <;> simp
@[simp] theorem State.checkClamp_links (s : State) : (s.checkClamp).links = s.links := by
  unfold State.checkClamp; (try dsimp only); (repeat' split) <;> simp
@[simp] theorem State.checkClamp_channels (s : State) : (s.checkClamp).channels = s.channels := by
  unfold State.checkClamp; (try dsimp only); (repeat' split) <;> simp
@[simp] theorem State.checkClamp_bond (s : State) : (s.checkClamp).bond = s.bond := by
  unfold State.checkClamp; (try dsimp only); (repeat' split) <;> simp
@[simp] theorem State.checkClamp_pull (s : State) : (s.checkClamp).pull = s.pull := by
  unfold State.checkClamp; (try dsimp only); (repeat' split) <;> simp
@[simp] theorem State.checkClamp_hold (s : State) : (s.checkClamp).hold = s.hold := by
  unfold State.checkClamp; (try dsimp only); (repeat' split) <;> simp
@[simp] theorem State.checkClamp_screen (s : State) : (s.checkClamp).screen = s.screen := by
  unfold State.checkClamp; (try dsimp only); (repeat' split) <;> simp
@[simp] theorem State.checkClamp_pending (s : State) : (s.checkClamp).pending = s.pending := by
  unfold State.checkClamp; (try dsimp only); (repeat' split) <;> simp

@[simp] theorem State.cancelTicket_programs (s : State) (h : Head) (w : StrayReason) (t : Ticket) : (s.cancelTicket h w t).programs = s.programs := by
  unfold State.cancelTicket; (try dsimp only); (repeat' split) <;> simp
@[simp] theorem State.cancelTicket_links (s : State) (h : Head) (w : StrayReason) (t : Ticket) : (s.cancelTicket h w t).links = s.links := by
  unfold State.cancelTicket; (try dsimp only); (repeat' split) <;> simp
@[simp] theorem State.cancelTicket_channels (s : State) (h : Head) (w : StrayReason) (t : Ticket) : (s.cancelTicket h w t).channels = s.channels := by
  unfold State.cancelTicket; (try dsimp only); (repeat' split) <;> simp
@[simp] theorem State.cancelTicket_pull (s : State) (h : Head) (w : StrayReason) (t : Ticket) : (s.cancelTicket h w t).pull = s.pull := by
  unfold State.cancelTicket; (try dsimp only); (repeat' split) <;> simp
@[simp] theorem State.cancelTicket_hold (s : State) (h : Head) (w : StrayReason) (t : Ticket) : (s.cancelTicket h w t).hold = s.hold := by
  unfold State.cancelTicket; (try dsimp only); (repeat' split) <;> simp
@[simp] theorem State.cancelTicket_screen (s : State) (h : Head) (w : StrayReason) (t : Ticket) : (s.cancelTicket h w t).screen = s.screen := by
  unfold State.cancelTicket; (try dsimp only); (repeat' split) <;> simp
@[simp] theorem State.cancelTicket_pending (s : State) (h : Head) (w : StrayReason) (t : Ticket) : (s.cancelTicket h w t).pending = s.pending := by
  unfold State.cancelTicket; (try dsimp only); (repeat' split) <;> simp

@[simp] theorem State.discardMap_ports (s : State) : (s.discardMap).ports = s.ports := by
  unfold State.discardMap; (try dsimp only); (repeat' split) <;> simp
@[simp] theorem State.discardMap_issuer (s : State) : (s.discardMap).issuer = s.issuer := by
  unfold State.discardMap; (try dsimp only); (repeat' split) <;> simp
@[simp] theorem State.discardMap_links (s : State) : (s.discardMap).links = s.links := by
  unfold State.discardMap; (try dsimp only); (repeat' split) <;> simp
@[simp] theorem State.discardMap_channels (s : State) : (s.discardMap).channels = s.channels := by
  unfold State.discardMap; (try dsimp only); (repeat' split) <;> simp
@[simp] theorem State.discardMap_bond (s : State) : (s.discardMap).bond = s.bond := by
  unfold State.discardMap; (try dsimp only); (repeat' split) <;> simp
@[simp] theorem State.discardMap_tracker (s : State) : (s.discardMap).tracker = s.tracker := by
  unfold State.discardMap; (try dsimp only); (repeat' split) <;> simp
@[simp] theorem State.discardMap_hold (s : State) : (s.discardMap).hold = s.hold := by
  unfold State.discardMap; (try dsimp only); (repeat' split) <;> simp
@[simp] theorem State.discardMap_screen (s : State) : (s.discardMap).screen = s.screen := by
  unfold State.discardMap; (try dsimp only); (repeat' split) <;> simp
@[simp] theorem State.discardMap_pending (s : State) : (s.discardMap).pending = s.pending := by
  unfold State.discardMap; (try dsimp only); (repeat' split) <;> simp

@[simp] theorem State.buildMap_links (s : State) (i : Nat) (q : Program) (r : StripRecord) : (s.buildMap i q r).links = s.links := by
  unfold State.buildMap; (try dsimp only); (repeat' split) <;> simp
@[simp] theorem State.buildMap_channels (s : State) (i : Nat) (q : Program) (r : StripRecord) : (s.buildMap i q r).channels = s.channels := by
  unfold State.buildMap; (try dsimp only); (repeat' split) <;> simp
@[simp] theorem State.buildMap_bond (s : State) (i : Nat) (q : Program) (r : StripRecord) : (s.buildMap i q r).bond = s.bond := by
  unfold State.buildMap; (try dsimp only); (repeat' split) <;> simp
@[simp] theorem State.buildMap_hold (s : State) (i : Nat) (q : Program) (r : StripRecord) : (s.buildMap i q r).hold = s.hold := by
  unfold State.buildMap; (try dsimp only); (repeat' split) <;> simp
@[simp] theorem State.buildMap_screen (s : State) (i : Nat) (q : Program) (r : StripRecord) : (s.buildMap i q r).screen = s.screen := by
  unfold State.buildMap; (try dsimp only); (repeat' split) <;> simp
@[simp] theorem State.buildMap_pending (s : State) (i : Nat) (q : Program) (r : StripRecord) : (s.buildMap i q r).pending = s.pending := by
  unfold State.buildMap; (try dsimp only); (repeat' split) <;> simp

@[simp] theorem State.takePwireSlot_programs (s : State) (p : PortId) (v : Nat) : (s.takePwireSlot p v).programs = s.programs := by
  unfold State.takePwireSlot; (try dsimp only); (repeat' split) <;> simp
@[simp] theorem State.takePwireSlot_map (s : State) (p : PortId) (v : Nat) : (s.takePwireSlot p v).map = s.map := by
  unfold State.takePwireSlot; (try dsimp only); (repeat' split) <;> simp
@[simp] theorem State.takePwireSlot_issuer (s : State) (p : PortId) (v : Nat) : (s.takePwireSlot p v).issuer = s.issuer := by
  unfold State.takePwireSlot; (try dsimp only); (repeat' split) <;> simp
@[simp] theorem State.takePwireSlot_links (s : State) (p : PortId) (v : Nat) : (s.takePwireSlot p v).links = s.links := by
  unfold State.takePwireSlot; (try dsimp only); (repeat' split) <;> simp
@[simp] theorem State.takePwireSlot_channels (s : State) (p : PortId) (v : Nat) : (s.takePwireSlot p v).channels = s.channels := by
  unfold State.takePwireSlot; (try dsimp only); (repeat' split) <;> simp
@[simp] theorem State.takePwireSlot_bond (s : State) (p : PortId) (v : Nat) : (s.takePwireSlot p v).bond = s.bond := by
  unfold State.takePwireSlot; (try dsimp only); (repeat' split) <;> simp
@[simp] theorem State.takePwireSlot_tracker (s : State) (p : PortId) (v : Nat) : (s.takePwireSlot p v).tracker = s.tracker := by
  unfold State.takePwireSlot; (try dsimp only); (repeat' split) <;> simp
@[simp] theorem State.takePwireSlot_pull (s : State) (p : PortId) (v : Nat) : (s.takePwireSlot p v).pull = s.pull := by
  unfold State.takePwireSlot; (try dsimp only); (repeat' split) <;> simp
@[simp] theorem State.takePwireSlot_hold (s : State) (p : PortId) (v : Nat) : (s.takePwireSlot p v).hold = s.hold := by
  unfold State.takePwireSlot; (try dsimp only); (repeat' split) <;> simp
@[simp] theorem State.takePwireSlot_screen (s : State) (p : PortId) (v : Nat) : (s.takePwireSlot p v).screen = s.screen := by
  unfold State.takePwireSlot; (try dsimp only); (repeat' split) <;> simp
@[simp] theorem State.takePwireSlot_pending (s : State) (p : PortId) (v : Nat) : (s.takePwireSlot p v).pending = s.pending := by
  unfold State.takePwireSlot; (try dsimp only); (repeat' split) <;> simp

@[simp] theorem State.takePwireGroup_map (s : State) (p : PortId) (v : Nat) (l : List Byte) : (s.takePwireGroup p v l).map = s.map := by
  unfold State.takePwireGroup; (try dsimp only); (repeat' split) <;> simp
@[simp] theorem State.takePwireGroup_issuer (s : State) (p : PortId) (v : Nat) (l : List Byte) : (s.takePwireGroup p v l).issuer = s.issuer := by
  unfold State.takePwireGroup; (try dsimp only); (repeat' split) <;> simp
@[simp] theorem State.takePwireGroup_links (s : State) (p : PortId) (v : Nat) (l : List Byte) : (s.takePwireGroup p v l).links = s.links := by
  unfold State.takePwireGroup; (try dsimp only); (repeat' split) <;> simp
@[simp] theorem State.takePwireGroup_channels (s : State) (p : PortId) (v : Nat) (l : List Byte) : (s.takePwireGroup p v l).channels = s.channels := by
  unfold State.takePwireGroup; (try dsimp only); (repeat' split) <;> simp
@[simp] theorem State.takePwireGroup_bond (s : State) (p : PortId) (v : Nat) (l : List Byte) : (s.takePwireGroup p v l).bond = s.bond := by
  unfold State.takePwireGroup; (try dsimp only); (repeat' split) <;> simp
@[simp] theorem State.takePwireGroup_tracker (s : State) (p : PortId) (v : Nat) (l : List Byte) : (s.takePwireGroup p v l).tracker = s.tracker := by
  unfold State.takePwireGroup; (try dsimp only); (repeat' split) <;> simp
@[simp] theorem State.takePwireGroup_pull (s : State) (p : PortId) (v : Nat) (l : List Byte) : (s.takePwireGroup p v l).pull = s.pull := by
  unfold State.takePwireGroup; (try dsimp only); (repeat' split) <;> simp
@[simp] theorem State.takePwireGroup_hold (s : State) (p : PortId) (v : Nat) (l : List Byte) : (s.takePwireGroup p v l).hold = s.hold := by
  unfold State.takePwireGroup; (try dsimp only); (repeat' split) <;> simp
@[simp] theorem State.takePwireGroup_screen (s : State) (p : PortId) (v : Nat) (l : List Byte) : (s.takePwireGroup p v l).screen = s.screen := by
  unfold State.takePwireGroup; (try dsimp only); (repeat' split) <;> simp
@[simp] theorem State.takePwireGroup_pending (s : State) (p : PortId) (v : Nat) (l : List Byte) : (s.takePwireGroup p v l).pending = s.pending := by
  unfold State.takePwireGroup; (try dsimp only); (repeat' split) <;> simp

@[simp] theorem State.grantTicket_ports (s : State) (h : Head) (t : Ticket) : (s.grantTicket h t).ports = s.ports := by
  unfold State.grantTicket; (try dsimp only); (repeat' split) <;> simp
@[simp] theorem State.grantTicket_programs (s : State) (h : Head) (t : Ticket) : (s.grantTicket h t).programs = s.programs := by
  unfold State.grantTicket; (try dsimp only); (repeat' split) <;> simp
@[simp] theorem State.grantTicket_links (s : State) (h : Head) (t : Ticket) : (s.grantTicket h t).links = s.links := by
  unfold State.grantTicket; (try dsimp only); (repeat' split) <;> simp
@[simp] theorem State.grantTicket_channels (s : State) (h : Head) (t : Ticket) : (s.grantTicket h t).channels = s.channels := by
  unfold State.grantTicket; (try dsimp only); (repeat' split) <;> simp
@[simp] theorem State.grantTicket_bond (s : State) (h : Head) (t : Ticket) : (s.grantTicket h t).bond = s.bond := by
  unfold State.grantTicket; (try dsimp only); (repeat' split) <;> simp
@[simp] theorem State.grantTicket_tracker (s : State) (h : Head) (t : Ticket) : (s.grantTicket h t).tracker = s.tracker := by
  unfold State.grantTicket; (try dsimp only); (repeat' split) <;> simp
@[simp] theorem State.grantTicket_pull (s : State) (h : Head) (t : Ticket) : (s.grantTicket h t).pull = s.pull := by
  unfold State.grantTicket; (try dsimp only); (repeat' split) <;> simp
@[simp] theorem State.grantTicket_hold (s : State) (h : Head) (t : Ticket) : (s.grantTicket h t).hold = s.hold := by
  unfold State.grantTicket; (try dsimp only); (repeat' split) <;> simp
@[simp] theorem State.grantTicket_screen (s : State) (h : Head) (t : Ticket) : (s.grantTicket h t).screen = s.screen := by
  unfold State.grantTicket; (try dsimp only); (repeat' split) <;> simp
@[simp] theorem State.grantTicket_pending (s : State) (h : Head) (t : Ticket) : (s.grantTicket h t).pending = s.pending := by
  unfold State.grantTicket; (try dsimp only); (repeat' split) <;> simp

@[simp] theorem State.issueTo_ports (s : State) (h : Head) (t : Ticket) : (s.issueTo h t).ports = s.ports := by
  unfold State.issueTo; (try dsimp only); (repeat' split) <;> simp
@[simp] theorem State.issueTo_programs (s : State) (h : Head) (t : Ticket) : (s.issueTo h t).programs = s.programs := by
  unfold State.issueTo; (try dsimp only); (repeat' split) <;> simp
@[simp] theorem State.issueTo_links (s : State) (h : Head) (t : Ticket) : (s.issueTo h t).links = s.links := by
  unfold State.issueTo; (try dsimp only); (repeat' split) <;> simp
@[simp] theorem State.issueTo_channels (s : State) (h : Head) (t : Ticket) : (s.issueTo h t).channels = s.channels := by
  unfold State.issueTo; (try dsimp only); (repeat' split) <;> simp
@[simp] theorem State.issueTo_bond (s : State) (h : Head) (t : Ticket) : (s.issueTo h t).bond = s.bond := by
  unfold State.issueTo; (try dsimp only); (repeat' split) <;> simp
@[simp] theorem State.issueTo_tracker (s : State) (h : Head) (t : Ticket) : (s.issueTo h t).tracker = s.tracker := by
  unfold State.issueTo; (try dsimp only); (repeat' split) <;> simp
@[simp] theorem State.issueTo_pull (s : State) (h : Head) (t : Ticket) : (s.issueTo h t).pull = s.pull := by
  unfold State.issueTo; (try dsimp only); (repeat' split) <;> simp
@[simp] theorem State.issueTo_hold (s : State) (h : Head) (t : Ticket) : (s.issueTo h t).hold = s.hold := by
  unfold State.issueTo; (try dsimp only); (repeat' split) <;> simp
@[simp] theorem State.issueTo_screen (s : State) (h : Head) (t : Ticket) : (s.issueTo h t).screen = s.screen := by
  unfold State.issueTo; (try dsimp only); (repeat' split) <;> simp
@[simp] theorem State.issueTo_pending (s : State) (h : Head) (t : Ticket) : (s.issueTo h t).pending = s.pending := by
  unfold State.issueTo; (try dsimp only); (repeat' split) <;> simp

@[simp] theorem State.postRunEnd_programs (s : State) (h : Head) (e : Bool) : (s.postRunEnd h e).programs = s.programs := by
  unfold State.postRunEnd; (try dsimp only); (repeat' split) <;> simp
@[simp] theorem State.postRunEnd_map (s : State) (h : Head) (e : Bool) : (s.postRunEnd h e).map = s.map := by
  unfold State.postRunEnd; (try dsimp only); (repeat' split) <;> simp
@[simp] theorem State.postRunEnd_issuer (s : State) (h : Head) (e : Bool) : (s.postRunEnd h e).issuer = s.issuer := by
  unfold State.postRunEnd; (try dsimp only); (repeat' split) <;> simp
@[simp] theorem State.postRunEnd_links (s : State) (h : Head) (e : Bool) : (s.postRunEnd h e).links = s.links := by
  unfold State.postRunEnd; (try dsimp only); (repeat' split) <;> simp
@[simp] theorem State.postRunEnd_channels (s : State) (h : Head) (e : Bool) : (s.postRunEnd h e).channels = s.channels := by
  unfold State.postRunEnd; (try dsimp only); (repeat' split) <;> simp
@[simp] theorem State.postRunEnd_bond (s : State) (h : Head) (e : Bool) : (s.postRunEnd h e).bond = s.bond := by
  unfold State.postRunEnd; (try dsimp only); (repeat' split) <;> simp
@[simp] theorem State.postRunEnd_tracker (s : State) (h : Head) (e : Bool) : (s.postRunEnd h e).tracker = s.tracker := by
  unfold State.postRunEnd; (try dsimp only); (repeat' split) <;> simp
@[simp] theorem State.postRunEnd_pull (s : State) (h : Head) (e : Bool) : (s.postRunEnd h e).pull = s.pull := by
  unfold State.postRunEnd; (try dsimp only); (repeat' split) <;> simp
@[simp] theorem State.postRunEnd_hold (s : State) (h : Head) (e : Bool) : (s.postRunEnd h e).hold = s.hold := by
  unfold State.postRunEnd; (try dsimp only); (repeat' split) <;> simp
@[simp] theorem State.postRunEnd_screen (s : State) (h : Head) (e : Bool) : (s.postRunEnd h e).screen = s.screen := by
  unfold State.postRunEnd; (try dsimp only); (repeat' split) <;> simp
@[simp] theorem State.postRunEnd_pending (s : State) (h : Head) (e : Bool) : (s.postRunEnd h e).pending = s.pending := by
  unfold State.postRunEnd; (try dsimp only); (repeat' split) <;> simp

@[simp] theorem State.loadResponse_programs (s : State) (p : PortId) (r : CmdResult) (d : Nat) (l : List Byte) : (s.loadResponse p r d l).programs = s.programs := by
  unfold State.loadResponse; (try dsimp only); (repeat' split) <;> simp
@[simp] theorem State.loadResponse_map (s : State) (p : PortId) (r : CmdResult) (d : Nat) (l : List Byte) : (s.loadResponse p r d l).map = s.map := by
  unfold State.loadResponse; (try dsimp only); (repeat' split) <;> simp
@[simp] theorem State.loadResponse_issuer (s : State) (p : PortId) (r : CmdResult) (d : Nat) (l : List Byte) : (s.loadResponse p r d l).issuer = s.issuer := by
  unfold State.loadResponse; (try dsimp only); (repeat' split) <;> simp
@[simp] theorem State.loadResponse_links (s : State) (p : PortId) (r : CmdResult) (d : Nat) (l : List Byte) : (s.loadResponse p r d l).links = s.links := by
  unfold State.loadResponse; (try dsimp only); (repeat' split) <;> simp
@[simp] theorem State.loadResponse_channels (s : State) (p : PortId) (r : CmdResult) (d : Nat) (l : List Byte) : (s.loadResponse p r d l).channels = s.channels := by
  unfold State.loadResponse; (try dsimp only); (repeat' split) <;> simp
@[simp] theorem State.loadResponse_bond (s : State) (p : PortId) (r : CmdResult) (d : Nat) (l : List Byte) : (s.loadResponse p r d l).bond = s.bond := by
  unfold State.loadResponse; (try dsimp only); (repeat' split) <;> simp
@[simp] theorem State.loadResponse_tracker (s : State) (p : PortId) (r : CmdResult) (d : Nat) (l : List Byte) : (s.loadResponse p r d l).tracker = s.tracker := by
  unfold State.loadResponse; (try dsimp only); (repeat' split) <;> simp
@[simp] theorem State.loadResponse_pull (s : State) (p : PortId) (r : CmdResult) (d : Nat) (l : List Byte) : (s.loadResponse p r d l).pull = s.pull := by
  unfold State.loadResponse; (try dsimp only); (repeat' split) <;> simp
@[simp] theorem State.loadResponse_hold (s : State) (p : PortId) (r : CmdResult) (d : Nat) (l : List Byte) : (s.loadResponse p r d l).hold = s.hold := by
  unfold State.loadResponse; (try dsimp only); (repeat' split) <;> simp
@[simp] theorem State.loadResponse_screen (s : State) (p : PortId) (r : CmdResult) (d : Nat) (l : List Byte) : (s.loadResponse p r d l).screen = s.screen := by
  unfold State.loadResponse; (try dsimp only); (repeat' split) <;> simp
@[simp] theorem State.loadResponse_pending (s : State) (p : PortId) (r : CmdResult) (d : Nat) (l : List Byte) : (s.loadResponse p r d l).pending = s.pending := by
  unfold State.loadResponse; (try dsimp only); (repeat' split) <;> simp

@[simp] theorem State.dropRequest_ports (s : State) (h : Head) : (s.dropRequest h).ports = s.ports := by
  unfold State.dropRequest; (try dsimp only); (repeat' split) <;> simp
@[simp] theorem State.dropRequest_programs (s : State) (h : Head) : (s.dropRequest h).programs = s.programs := by
  unfold State.dropRequest; (try dsimp only); (repeat' split) <;> simp
@[simp] theorem State.dropRequest_map (s : State) (h : Head) : (s.dropRequest h).map = s.map := by
  unfold State.dropRequest; (try dsimp only); (repeat' split) <;> simp
@[simp] theorem State.dropRequest_links (s : State) (h : Head) : (s.dropRequest h).links = s.links := by
  unfold State.dropRequest; (try dsimp only); (repeat' split) <;> simp
@[simp] theorem State.dropRequest_channels (s : State) (h : Head) : (s.dropRequest h).channels = s.channels := by
  unfold State.dropRequest; (try dsimp only); (repeat' split) <;> simp
@[simp] theorem State.dropRequest_bond (s : State) (h : Head) : (s.dropRequest h).bond = s.bond := by
  unfold State.dropRequest; (try dsimp only); (repeat' split) <;> simp
@[simp] theorem State.dropRequest_tracker (s : State) (h : Head) : (s.dropRequest h).tracker = s.tracker := by
  unfold State.dropRequest; (try dsimp only); (repeat' split) <;> simp
@[simp] theorem State.dropRequest_pull (s : State) (h : Head) : (s.dropRequest h).pull = s.pull := by
  unfold State.dropRequest; (try dsimp only); (repeat' split) <;> simp
@[simp] theorem State.dropRequest_hold (s : State) (h : Head) : (s.dropRequest h).hold = s.hold := by
  unfold State.dropRequest; (try dsimp only); (repeat' split) <;> simp
@[simp] theorem State.dropRequest_screen (s : State) (h : Head) : (s.dropRequest h).screen = s.screen := by
  unfold State.dropRequest; (try dsimp only); (repeat' split) <;> simp
@[simp] theorem State.dropRequest_pending (s : State) (h : Head) : (s.dropRequest h).pending = s.pending := by
  unfold State.dropRequest; (try dsimp only); (repeat' split) <;> simp

@[simp] theorem State.waitFor_programs (s : State) (p : PortId) (h : Head) (r : Request) : (s.waitFor p h r).programs = s.programs := by
  unfold State.waitFor; (try dsimp only); (repeat' split) <;> simp
@[simp] theorem State.waitFor_map (s : State) (p : PortId) (h : Head) (r : Request) : (s.waitFor p h r).map = s.map := by
  unfold State.waitFor; (try dsimp only); (repeat' split) <;> simp
@[simp] theorem State.waitFor_links (s : State) (p : PortId) (h : Head) (r : Request) : (s.waitFor p h r).links = s.links := by
  unfold State.waitFor; (try dsimp only); (repeat' split) <;> simp
@[simp] theorem State.waitFor_channels (s : State) (p : PortId) (h : Head) (r : Request) : (s.waitFor p h r).channels = s.channels := by
  unfold State.waitFor; (try dsimp only); (repeat' split) <;> simp
@[simp] theorem State.waitFor_bond (s : State) (p : PortId) (h : Head) (r : Request) : (s.waitFor p h r).bond = s.bond := by
  unfold State.waitFor; (try dsimp only); (repeat' split) <;> simp
@[simp] theorem State.waitFor_tracker (s : State) (p : PortId) (h : Head) (r : Request) : (s.waitFor p h r).tracker = s.tracker := by
  unfold State.waitFor; (try dsimp only); (repeat' split) <;> simp
@[simp] theorem State.waitFor_pull (s : State) (p : PortId) (h : Head) (r : Request) : (s.waitFor p h r).pull = s.pull := by
  unfold State.waitFor; (try dsimp only); (repeat' split) <;> simp
@[simp] theorem State.waitFor_hold (s : State) (p : PortId) (h : Head) (r : Request) : (s.waitFor p h r).hold = s.hold := by
  unfold State.waitFor; (try dsimp only); (repeat' split) <;> simp
@[simp] theorem State.waitFor_screen (s : State) (p : PortId) (h : Head) (r : Request) : (s.waitFor p h r).screen = s.screen := by
  unfold State.waitFor; (try dsimp only); (repeat' split) <;> simp
@[simp] theorem State.waitFor_pending (s : State) (p : PortId) (h : Head) (r : Request) : (s.waitFor p h r).pending = s.pending := by
  unfold State.waitFor; (try dsimp only); (repeat' split) <;> simp

@[simp] theorem State.detectTouch_programs (s : State) (c : ChanId) (h : Head) (b : Channel) (v : Int) : (s.detectTouch c h b v).programs = s.programs := by
  unfold State.detectTouch; (try dsimp only); (repeat' split) <;> simp
@[simp] theorem State.detectTouch_map (s : State) (c : ChanId) (h : Head) (b : Channel) (v : Int) : (s.detectTouch c h b v).map = s.map := by
  unfold State.detectTouch; (try dsimp only); (repeat' split) <;> simp
@[simp] theorem State.detectTouch_links (s : State) (c : ChanId) (h : Head) (b : Channel) (v : Int) : (s.detectTouch c h b v).links = s.links := by
  unfold State.detectTouch; (try dsimp only); (repeat' split) <;> simp
@[simp] theorem State.detectTouch_bond (s : State) (c : ChanId) (h : Head) (b : Channel) (v : Int) : (s.detectTouch c h b v).bond = s.bond := by
  unfold State.detectTouch; (try dsimp only); (repeat' split) <;> simp
@[simp] theorem State.detectTouch_tracker (s : State) (c : ChanId) (h : Head) (b : Channel) (v : Int) : (s.detectTouch c h b v).tracker = s.tracker := by
  unfold State.detectTouch; (try dsimp only); (repeat' split) <;> simp
@[simp] theorem State.detectTouch_pull (s : State) (c : ChanId) (h : Head) (b : Channel) (v : Int) : (s.detectTouch c h b v).pull = s.pull := by
  unfold State.detectTouch; (try dsimp only); (repeat' split) <;> simp
@[simp] theorem State.detectTouch_hold (s : State) (c : ChanId) (h : Head) (b : Channel) (v : Int) : (s.detectTouch c h b v).hold = s.hold := by
  unfold State.detectTouch; (try dsimp only); (repeat' split) <;> simp
@[simp] theorem State.detectTouch_screen (s : State) (c : ChanId) (h : Head) (b : Channel) (v : Int) : (s.detectTouch c h b v).screen = s.screen := by
  unfold State.detectTouch; (try dsimp only); (repeat' split) <;> simp
@[simp] theorem State.detectTouch_pending (s : State) (c : ChanId) (h : Head) (b : Channel) (v : Int) : (s.detectTouch c h b v).pending = s.pending := by
  unfold State.detectTouch; (try dsimp only); (repeat' split) <;> simp

@[simp] theorem State.deliverValue_programs (s : State) (c : ChanId) (b : Channel) (v : Int) : (s.deliverValue c b v).programs = s.programs := by
  unfold State.deliverValue; (try dsimp only); (repeat' split) <;> simp
@[simp] theorem State.deliverValue_map (s : State) (c : ChanId) (b : Channel) (v : Int) : (s.deliverValue c b v).map = s.map := by
  unfold State.deliverValue; (try dsimp only); (repeat' split) <;> simp
@[simp] theorem State.deliverValue_links (s : State) (c : ChanId) (b : Channel) (v : Int) : (s.deliverValue c b v).links = s.links := by
  unfold State.deliverValue; (try dsimp only); (repeat' split) <;> simp
@[simp] theorem State.deliverValue_tracker (s : State) (c : ChanId) (b : Channel) (v : Int) : (s.deliverValue c b v).tracker = s.tracker := by
  unfold State.deliverValue; (try dsimp only); (repeat' split) <;> simp
@[simp] theorem State.deliverValue_hold (s : State) (c : ChanId) (b : Channel) (v : Int) : (s.deliverValue c b v).hold = s.hold := by
  unfold State.deliverValue; (try dsimp only); (repeat' split) <;> simp
@[simp] theorem State.deliverValue_screen (s : State) (c : ChanId) (b : Channel) (v : Int) : (s.deliverValue c b v).screen = s.screen := by
  unfold State.deliverValue; (try dsimp only); (repeat' split) <;> simp
@[simp] theorem State.deliverValue_pending (s : State) (c : ChanId) (b : Channel) (v : Int) : (s.deliverValue c b v).pending = s.pending := by
  unfold State.deliverValue; (try dsimp only); (repeat' split) <;> simp

@[simp] theorem State.sample_programs (s : State) (c : ChanId) (x : Int) : (s.sample c x).programs = s.programs := by
  unfold State.sample; (try dsimp only); (repeat' split) <;> simp
@[simp] theorem State.sample_map (s : State) (c : ChanId) (x : Int) : (s.sample c x).map = s.map := by
  unfold State.sample; (try dsimp only); (repeat' split) <;> simp
@[simp] theorem State.sample_links (s : State) (c : ChanId) (x : Int) : (s.sample c x).links = s.links := by
  unfold State.sample; (try dsimp only); (repeat' split) <;> simp
@[simp] theorem State.sample_tracker (s : State) (c : ChanId) (x : Int) : (s.sample c x).tracker = s.tracker := by
  unfold State.sample; (try dsimp only); (repeat' split) <;> simp
@[simp] theorem State.sample_hold (s : State) (c : ChanId) (x : Int) : (s.sample c x).hold = s.hold := by
  unfold State.sample; (try dsimp only); (repeat' split) <;> simp
@[simp] theorem State.sample_screen (s : State) (c : ChanId) (x : Int) : (s.sample c x).screen = s.screen := by
  unfold State.sample; (try dsimp only); (repeat' split) <;> simp
@[simp] theorem State.sample_pending (s : State) (c : ChanId) (x : Int) : (s.sample c x).pending = s.pending := by
  unfold State.sample; (try dsimp only); (repeat' split) <;> simp

@[simp] theorem State.postLink_programs (s : State) (l : Link) (n : Notice) : (s.postLink l n).programs = s.programs := by
  unfold State.postLink; (try dsimp only); (repeat' split) <;> simp
@[simp] theorem State.postLink_map (s : State) (l : Link) (n : Notice) : (s.postLink l n).map = s.map := by
  unfold State.postLink; (try dsimp only); (repeat' split) <;> simp
@[simp] theorem State.postLink_issuer (s : State) (l : Link) (n : Notice) : (s.postLink l n).issuer = s.issuer := by
  unfold State.postLink; (try dsimp only); (repeat' split) <;> simp
@[simp] theorem State.postLink_links (s : State) (l : Link) (n : Notice) : (s.postLink l n).links = s.links := by
  unfold State.postLink; (try dsimp only); (repeat' split) <;> simp
@[simp] theorem State.postLink_channels (s : State) (l : Link) (n : Notice) : (s.postLink l n).channels = s.channels := by
  unfold State.postLink; (try dsimp only); (repeat' split) <;> simp
@[simp] theorem State.postLink_bond (s : State) (l : Link) (n : Notice) : (s.postLink l n).bond = s.bond := by
  unfold State.postLink; (try dsimp only); (repeat' split) <;> simp
@[simp] theorem State.postLink_tracker (s : State) (l : Link) (n : Notice) : (s.postLink l n).tracker = s.tracker := by
  unfold State.postLink; (try dsimp only); (repeat' split) <;> simp
@[simp] theorem State.postLink_pull (s : State) (l : Link) (n : Notice) : (s.postLink l n).pull = s.pull := by
  unfold State.postLink; (try dsimp only); (repeat' split) <;> simp
@[simp] theorem State.postLink_hold (s : State) (l : Link) (n : Notice) : (s.postLink l n).hold = s.hold := by
  unfold State.postLink; (try dsimp only); (repeat' split) <;> simp
@[simp] theorem State.postLink_screen (s : State) (l : Link) (n : Notice) : (s.postLink l n).screen = s.screen := by
  unfold State.postLink; (try dsimp only); (repeat' split) <;> simp
@[simp] theorem State.postLink_pending (s : State) (l : Link) (n : Notice) : (s.postLink l n).pending = s.pending := by
  unfold State.postLink; (try dsimp only); (repeat' split) <;> simp

@[simp] theorem State.goodWord_programs (s : State) (l : Link) (f : Receiver → Receiver) : (s.goodWord l f).programs = s.programs := by
  unfold State.goodWord; (try dsimp only); (repeat' split) <;> simp
@[simp] theorem State.goodWord_map (s : State) (l : Link) (f : Receiver → Receiver) : (s.goodWord l f).map = s.map := by
  unfold State.goodWord; (try dsimp only); (repeat' split) <;> simp
@[simp] theorem State.goodWord_issuer (s : State) (l : Link) (f : Receiver → Receiver) : (s.goodWord l f).issuer = s.issuer := by
  unfold State.goodWord; (try dsimp only); (repeat' split) <;> simp
@[simp] theorem State.goodWord_channels (s : State) (l : Link) (f : Receiver → Receiver) : (s.goodWord l f).channels = s.channels := by
  unfold State.goodWord; (try dsimp only); (repeat' split) <;> simp
@[simp] theorem State.goodWord_bond (s : State) (l : Link) (f : Receiver → Receiver) : (s.goodWord l f).bond = s.bond := by
  unfold State.goodWord; (try dsimp only); (repeat' split) <;> simp
@[simp] theorem State.goodWord_tracker (s : State) (l : Link) (f : Receiver → Receiver) : (s.goodWord l f).tracker = s.tracker := by
  unfold State.goodWord; (try dsimp only); (repeat' split) <;> simp
@[simp] theorem State.goodWord_pull (s : State) (l : Link) (f : Receiver → Receiver) : (s.goodWord l f).pull = s.pull := by
  unfold State.goodWord; (try dsimp only); (repeat' split) <;> simp
@[simp] theorem State.goodWord_hold (s : State) (l : Link) (f : Receiver → Receiver) : (s.goodWord l f).hold = s.hold := by
  unfold State.goodWord; (try dsimp only); (repeat' split) <;> simp
@[simp] theorem State.goodWord_screen (s : State) (l : Link) (f : Receiver → Receiver) : (s.goodWord l f).screen = s.screen := by
  unfold State.goodWord; (try dsimp only); (repeat' split) <;> simp
@[simp] theorem State.goodWord_pending (s : State) (l : Link) (f : Receiver → Receiver) : (s.goodWord l f).pending = s.pending := by
  unfold State.goodWord; (try dsimp only); (repeat' split) <;> simp

@[simp] theorem State.markLink_ports (s : State) (l : Link) (f : Window → Window) (g : PullCapture → PullCapture) : (s.markLink l f g).ports = s.ports := by
  unfold State.markLink; (try dsimp only); (repeat' split) <;> simp
@[simp] theorem State.markLink_programs (s : State) (l : Link) (f : Window → Window) (g : PullCapture → PullCapture) : (s.markLink l f g).programs = s.programs := by
  unfold State.markLink; (try dsimp only); (repeat' split) <;> simp
@[simp] theorem State.markLink_map (s : State) (l : Link) (f : Window → Window) (g : PullCapture → PullCapture) : (s.markLink l f g).map = s.map := by
  unfold State.markLink; (try dsimp only); (repeat' split) <;> simp
@[simp] theorem State.markLink_issuer (s : State) (l : Link) (f : Window → Window) (g : PullCapture → PullCapture) : (s.markLink l f g).issuer = s.issuer := by
  unfold State.markLink; (try dsimp only); (repeat' split) <;> simp
@[simp] theorem State.markLink_links (s : State) (l : Link) (f : Window → Window) (g : PullCapture → PullCapture) : (s.markLink l f g).links = s.links := by
  unfold State.markLink; (try dsimp only); (repeat' split) <;> simp
@[simp] theorem State.markLink_channels (s : State) (l : Link) (f : Window → Window) (g : PullCapture → PullCapture) : (s.markLink l f g).channels = s.channels := by
  unfold State.markLink; (try dsimp only); (repeat' split) <;> simp
@[simp] theorem State.markLink_tracker (s : State) (l : Link) (f : Window → Window) (g : PullCapture → PullCapture) : (s.markLink l f g).tracker = s.tracker := by
  unfold State.markLink; (try dsimp only); (repeat' split) <;> simp
@[simp] theorem State.markLink_hold (s : State) (l : Link) (f : Window → Window) (g : PullCapture → PullCapture) : (s.markLink l f g).hold = s.hold := by
  unfold State.markLink; (try dsimp only); (repeat' split) <;> simp
@[simp] theorem State.markLink_screen (s : State) (l : Link) (f : Window → Window) (g : PullCapture → PullCapture) : (s.markLink l f g).screen = s.screen := by
  unfold State.markLink; (try dsimp only); (repeat' split) <;> simp
@[simp] theorem State.markLink_pending (s : State) (l : Link) (f : Window → Window) (g : PullCapture → PullCapture) : (s.markLink l f g).pending = s.pending := by
  unfold State.markLink; (try dsimp only); (repeat' split) <;> simp

@[simp] theorem State.openWindow_ports (s : State) (h : Head) : (s.openWindow h).ports = s.ports := by
  unfold State.openWindow; (try dsimp only); (repeat' split) <;> simp
@[simp] theorem State.openWindow_programs (s : State) (h : Head) : (s.openWindow h).programs = s.programs := by
  unfold State.openWindow; (try dsimp only); (repeat' split) <;> simp
@[simp] theorem State.openWindow_map (s : State) (h : Head) : (s.openWindow h).map = s.map := by
  unfold State.openWindow; (try dsimp only); (repeat' split) <;> simp
@[simp] theorem State.openWindow_issuer (s : State) (h : Head) : (s.openWindow h).issuer = s.issuer := by
  unfold State.openWindow; (try dsimp only); (repeat' split) <;> simp
@[simp] theorem State.openWindow_links (s : State) (h : Head) : (s.openWindow h).links = s.links := by
  unfold State.openWindow; (try dsimp only); (repeat' split) <;> simp
@[simp] theorem State.openWindow_tracker (s : State) (h : Head) : (s.openWindow h).tracker = s.tracker := by
  unfold State.openWindow; (try dsimp only); (repeat' split) <;> simp
@[simp] theorem State.openWindow_pull (s : State) (h : Head) : (s.openWindow h).pull = s.pull := by
  unfold State.openWindow; (try dsimp only); (repeat' split) <;> simp
@[simp] theorem State.openWindow_hold (s : State) (h : Head) : (s.openWindow h).hold = s.hold := by
  unfold State.openWindow; (try dsimp only); (repeat' split) <;> simp
@[simp] theorem State.openWindow_screen (s : State) (h : Head) : (s.openWindow h).screen = s.screen := by
  unfold State.openWindow; (try dsimp only); (repeat' split) <;> simp
@[simp] theorem State.openWindow_pending (s : State) (h : Head) : (s.openWindow h).pending = s.pending := by
  unfold State.openWindow; (try dsimp only); (repeat' split) <;> simp

@[simp] theorem State.commit_ports (s : State) (h : Head) (t : Ticket) (ph : Phase) (r : BondResult) : (s.commit h t ph r).ports = s.ports := by
  unfold State.commit; (try dsimp only); (repeat' split) <;> simp
@[simp] theorem State.commit_programs (s : State) (h : Head) (t : Ticket) (ph : Phase) (r : BondResult) : (s.commit h t ph r).programs = s.programs := by
  unfold State.commit; (try dsimp only); (repeat' split) <;> simp
@[simp] theorem State.commit_links (s : State) (h : Head) (t : Ticket) (ph : Phase) (r : BondResult) : (s.commit h t ph r).links = s.links := by
  unfold State.commit; (try dsimp only); (repeat' split) <;> simp
@[simp] theorem State.commit_channels (s : State) (h : Head) (t : Ticket) (ph : Phase) (r : BondResult) : (s.commit h t ph r).channels = s.channels := by
  unfold State.commit; (try dsimp only); (repeat' split) <;> simp
@[simp] theorem State.commit_bond (s : State) (h : Head) (t : Ticket) (ph : Phase) (r : BondResult) : (s.commit h t ph r).bond = s.bond := by
  unfold State.commit; (try dsimp only); (repeat' split) <;> simp
@[simp] theorem State.commit_tracker (s : State) (h : Head) (t : Ticket) (ph : Phase) (r : BondResult) : (s.commit h t ph r).tracker = s.tracker := by
  unfold State.commit; (try dsimp only); (repeat' split) <;> simp
@[simp] theorem State.commit_hold (s : State) (h : Head) (t : Ticket) (ph : Phase) (r : BondResult) : (s.commit h t ph r).hold = s.hold := by
  unfold State.commit; (try dsimp only); (repeat' split) <;> simp
@[simp] theorem State.commit_screen (s : State) (h : Head) (t : Ticket) (ph : Phase) (r : BondResult) : (s.commit h t ph r).screen = s.screen := by
  unfold State.commit; (try dsimp only); (repeat' split) <;> simp
@[simp] theorem State.commit_pending (s : State) (h : Head) (t : Ticket) (ph : Phase) (r : BondResult) : (s.commit h t ph r).pending = s.pending := by
  unfold State.commit; (try dsimp only); (repeat' split) <;> simp

@[simp] theorem State.reportVerdict_programs (s : State) (h : Head) (t : Ticket) (ph : Phase) (r : BondResult) (x y : Bool) : (s.reportVerdict h t ph r x y).programs = s.programs := by
  unfold State.reportVerdict; (try dsimp only); (repeat' split) <;> simp
@[simp] theorem State.reportVerdict_map (s : State) (h : Head) (t : Ticket) (ph : Phase) (r : BondResult) (x y : Bool) : (s.reportVerdict h t ph r x y).map = s.map := by
  unfold State.reportVerdict; (try dsimp only); (repeat' split) <;> simp
@[simp] theorem State.reportVerdict_links (s : State) (h : Head) (t : Ticket) (ph : Phase) (r : BondResult) (x y : Bool) : (s.reportVerdict h t ph r x y).links = s.links := by
  unfold State.reportVerdict; (try dsimp only); (repeat' split) <;> simp
@[simp] theorem State.reportVerdict_channels (s : State) (h : Head) (t : Ticket) (ph : Phase) (r : BondResult) (x y : Bool) : (s.reportVerdict h t ph r x y).channels = s.channels := by
  unfold State.reportVerdict; (try dsimp only); (repeat' split) <;> simp
@[simp] theorem State.reportVerdict_bond (s : State) (h : Head) (t : Ticket) (ph : Phase) (r : BondResult) (x y : Bool) : (s.reportVerdict h t ph r x y).bond = s.bond := by
  unfold State.reportVerdict; (try dsimp only); (repeat' split) <;> simp
@[simp] theorem State.reportVerdict_tracker (s : State) (h : Head) (t : Ticket) (ph : Phase) (r : BondResult) (x y : Bool) : (s.reportVerdict h t ph r x y).tracker = s.tracker := by
  unfold State.reportVerdict; (try dsimp only); (repeat' split) <;> simp
@[simp] theorem State.reportVerdict_pull (s : State) (h : Head) (t : Ticket) (ph : Phase) (r : BondResult) (x y : Bool) : (s.reportVerdict h t ph r x y).pull = s.pull := by
  unfold State.reportVerdict; (try dsimp only); (repeat' split) <;> simp
@[simp] theorem State.reportVerdict_hold (s : State) (h : Head) (t : Ticket) (ph : Phase) (r : BondResult) (x y : Bool) : (s.reportVerdict h t ph r x y).hold = s.hold := by
  unfold State.reportVerdict; (try dsimp only); (repeat' split) <;> simp
@[simp] theorem State.reportVerdict_screen (s : State) (h : Head) (t : Ticket) (ph : Phase) (r : BondResult) (x y : Bool) : (s.reportVerdict h t ph r x y).screen = s.screen := by
  unfold State.reportVerdict; (try dsimp only); (repeat' split) <;> simp
@[simp] theorem State.reportVerdict_pending (s : State) (h : Head) (t : Ticket) (ph : Phase) (r : BondResult) (x y : Bool) : (s.reportVerdict h t ph r x y).pending = s.pending := by
  unfold State.reportVerdict; (try dsimp only); (repeat' split) <;> simp

@[simp] theorem State.closeBound_programs (s : State) (h : Head) (w : Window) (t : Ticket) (ph : Phase) : (s.closeBound h w t ph).programs = s.programs := by
  unfold State.closeBound; (try dsimp only); (repeat' split) <;> simp
@[simp] theorem State.closeBound_links (s : State) (h : Head) (w : Window) (t : Ticket) (ph : Phase) : (s.closeBound h w t ph).links = s.links := by
  unfold State.closeBound; (try dsimp only); (repeat' split) <;> simp
@[simp] theorem State.closeBound_channels (s : State) (h : Head) (w : Window) (t : Ticket) (ph : Phase) : (s.closeBound h w t ph).channels = s.channels := by
  unfold State.closeBound; (try dsimp only); (repeat' split) <;> simp
@[simp] theorem State.closeBound_hold (s : State) (h : Head) (w : Window) (t : Ticket) (ph : Phase) : (s.closeBound h w t ph).hold = s.hold := by
  unfold State.closeBound; (try dsimp only); (repeat' split) <;> simp
@[simp] theorem State.closeBound_screen (s : State) (h : Head) (w : Window) (t : Ticket) (ph : Phase) : (s.closeBound h w t ph).screen = s.screen := by
  unfold State.closeBound; (try dsimp only); (repeat' split) <;> simp
@[simp] theorem State.closeBound_pending (s : State) (h : Head) (w : Window) (t : Ticket) (ph : Phase) : (s.closeBound h w t ph).pending = s.pending := by
  unfold State.closeBound; (try dsimp only); (repeat' split) <;> simp

@[simp] theorem State.closeWindow_programs (s : State) (h : Head) : (s.closeWindow h).programs = s.programs := by
  unfold State.closeWindow; (try dsimp only); (repeat' split) <;> simp
@[simp] theorem State.closeWindow_links (s : State) (h : Head) : (s.closeWindow h).links = s.links := by
  unfold State.closeWindow; (try dsimp only); (repeat' split) <;> simp
@[simp] theorem State.closeWindow_hold (s : State) (h : Head) : (s.closeWindow h).hold = s.hold := by
  unfold State.closeWindow; (try dsimp only); (repeat' split) <;> simp
@[simp] theorem State.closeWindow_screen (s : State) (h : Head) : (s.closeWindow h).screen = s.screen := by
  unfold State.closeWindow; (try dsimp only); (repeat' split) <;> simp
@[simp] theorem State.closeWindow_pending (s : State) (h : Head) : (s.closeWindow h).pending = s.pending := by
  unfold State.closeWindow; (try dsimp only); (repeat' split) <;> simp

@[simp] theorem State.finishRecord_ports (s : State) (x y : Nat) : (s.finishRecord x y).ports = s.ports := rfl
@[simp] theorem State.finishRecord_programs (s : State) (x y : Nat) : (s.finishRecord x y).programs = s.programs := rfl
@[simp] theorem State.finishRecord_map (s : State) (x y : Nat) : (s.finishRecord x y).map = s.map := rfl
@[simp] theorem State.finishRecord_issuer (s : State) (x y : Nat) : (s.finishRecord x y).issuer = s.issuer := rfl
@[simp] theorem State.finishRecord_links (s : State) (x y : Nat) : (s.finishRecord x y).links = s.links := rfl
@[simp] theorem State.finishRecord_channels (s : State) (x y : Nat) : (s.finishRecord x y).channels = s.channels := rfl
@[simp] theorem State.finishRecord_bond (s : State) (x y : Nat) : (s.finishRecord x y).bond = s.bond := rfl
@[simp] theorem State.finishRecord_pull (s : State) (x y : Nat) : (s.finishRecord x y).pull = s.pull := rfl
@[simp] theorem State.finishRecord_hold (s : State) (x y : Nat) : (s.finishRecord x y).hold = s.hold := rfl
@[simp] theorem State.finishRecord_screen (s : State) (x y : Nat) : (s.finishRecord x y).screen = s.screen := rfl
@[simp] theorem State.finishRecord_pending (s : State) (x y : Nat) : (s.finishRecord x y).pending = s.pending := rfl

@[simp] theorem State.endPull_programs (s : State) (r : PullRecord) (m k : Nat) (x : PullResult) : (s.endPull r m k x).programs = s.programs := by
  unfold State.endPull; (try dsimp only); (repeat' split) <;> simp
@[simp] theorem State.endPull_map (s : State) (r : PullRecord) (m k : Nat) (x : PullResult) : (s.endPull r m k x).map = s.map := by
  unfold State.endPull; (try dsimp only); (repeat' split) <;> simp
@[simp] theorem State.endPull_issuer (s : State) (r : PullRecord) (m k : Nat) (x : PullResult) : (s.endPull r m k x).issuer = s.issuer := by
  unfold State.endPull; (try dsimp only); (repeat' split) <;> simp
@[simp] theorem State.endPull_links (s : State) (r : PullRecord) (m k : Nat) (x : PullResult) : (s.endPull r m k x).links = s.links := by
  unfold State.endPull; (try dsimp only); (repeat' split) <;> simp
@[simp] theorem State.endPull_bond (s : State) (r : PullRecord) (m k : Nat) (x : PullResult) : (s.endPull r m k x).bond = s.bond := by
  unfold State.endPull; (try dsimp only); (repeat' split) <;> simp
@[simp] theorem State.endPull_screen (s : State) (r : PullRecord) (m k : Nat) (x : PullResult) : (s.endPull r m k x).screen = s.screen := by
  unfold State.endPull; (try dsimp only); (repeat' split) <;> simp
@[simp] theorem State.endPull_pending (s : State) (r : PullRecord) (m k : Nat) (x : PullResult) : (s.endPull r m k x).pending = s.pending := by
  unfold State.endPull; (try dsimp only); (repeat' split) <;> simp

@[simp] theorem State.releaseZone_links (s : State) (r : StripRecord) (m : StripMap) : (s.releaseZone r m).links = s.links := by
  unfold State.releaseZone; (try dsimp only); (repeat' split) <;> simp
@[simp] theorem State.releaseZone_channels (s : State) (r : StripRecord) (m : StripMap) : (s.releaseZone r m).channels = s.channels := by
  unfold State.releaseZone; (try dsimp only); (repeat' split) <;> simp
@[simp] theorem State.releaseZone_bond (s : State) (r : StripRecord) (m : StripMap) : (s.releaseZone r m).bond = s.bond := by
  unfold State.releaseZone; (try dsimp only); (repeat' split) <;> simp
@[simp] theorem State.releaseZone_hold (s : State) (r : StripRecord) (m : StripMap) : (s.releaseZone r m).hold = s.hold := by
  unfold State.releaseZone; (try dsimp only); (repeat' split) <;> simp
@[simp] theorem State.releaseZone_screen (s : State) (r : StripRecord) (m : StripMap) : (s.releaseZone r m).screen = s.screen := by
  unfold State.releaseZone; (try dsimp only); (repeat' split) <;> simp
@[simp] theorem State.releaseZone_pending (s : State) (r : StripRecord) (m : StripMap) : (s.releaseZone r m).pending = s.pending := by
  unfold State.releaseZone; (try dsimp only); (repeat' split) <;> simp

@[simp] theorem State.stow_programs (s : State) (r : StripRecord) (t : OutTable) (i : Nat) : (s.stow r t i).programs = s.programs := by
  unfold State.stow; (try dsimp only); (repeat' split) <;> simp
@[simp] theorem State.stow_map (s : State) (r : StripRecord) (t : OutTable) (i : Nat) : (s.stow r t i).map = s.map := by
  unfold State.stow; (try dsimp only); (repeat' split) <;> simp
@[simp] theorem State.stow_issuer (s : State) (r : StripRecord) (t : OutTable) (i : Nat) : (s.stow r t i).issuer = s.issuer := by
  unfold State.stow; (try dsimp only); (repeat' split) <;> simp
@[simp] theorem State.stow_links (s : State) (r : StripRecord) (t : OutTable) (i : Nat) : (s.stow r t i).links = s.links := by
  unfold State.stow; (try dsimp only); (repeat' split) <;> simp
@[simp] theorem State.stow_channels (s : State) (r : StripRecord) (t : OutTable) (i : Nat) : (s.stow r t i).channels = s.channels := by
  unfold State.stow; (try dsimp only); (repeat' split) <;> simp
@[simp] theorem State.stow_bond (s : State) (r : StripRecord) (t : OutTable) (i : Nat) : (s.stow r t i).bond = s.bond := by
  unfold State.stow; (try dsimp only); (repeat' split) <;> simp
@[simp] theorem State.stow_pull (s : State) (r : StripRecord) (t : OutTable) (i : Nat) : (s.stow r t i).pull = s.pull := by
  unfold State.stow; (try dsimp only); (repeat' split) <;> simp
@[simp] theorem State.stow_hold (s : State) (r : StripRecord) (t : OutTable) (i : Nat) : (s.stow r t i).hold = s.hold := by
  unfold State.stow; (try dsimp only); (repeat' split) <;> simp
@[simp] theorem State.stow_screen (s : State) (r : StripRecord) (t : OutTable) (i : Nat) : (s.stow r t i).screen = s.screen := by
  unfold State.stow; (try dsimp only); (repeat' split) <;> simp
@[simp] theorem State.stow_pending (s : State) (r : StripRecord) (t : OutTable) (i : Nat) : (s.stow r t i).pending = s.pending := by
  unfold State.stow; (try dsimp only); (repeat' split) <;> simp

@[simp] theorem State.defineRegion_ports (s : State) (i : Nat) (r : Region) : (s.defineRegion i r).ports = s.ports := by
  unfold State.defineRegion; (try dsimp only); (repeat' split) <;> simp
@[simp] theorem State.defineRegion_programs (s : State) (i : Nat) (r : Region) : (s.defineRegion i r).programs = s.programs := by
  unfold State.defineRegion; (try dsimp only); (repeat' split) <;> simp
@[simp] theorem State.defineRegion_map (s : State) (i : Nat) (r : Region) : (s.defineRegion i r).map = s.map := by
  unfold State.defineRegion; (try dsimp only); (repeat' split) <;> simp
@[simp] theorem State.defineRegion_issuer (s : State) (i : Nat) (r : Region) : (s.defineRegion i r).issuer = s.issuer := by
  unfold State.defineRegion; (try dsimp only); (repeat' split) <;> simp
@[simp] theorem State.defineRegion_links (s : State) (i : Nat) (r : Region) : (s.defineRegion i r).links = s.links := by
  unfold State.defineRegion; (try dsimp only); (repeat' split) <;> simp
@[simp] theorem State.defineRegion_channels (s : State) (i : Nat) (r : Region) : (s.defineRegion i r).channels = s.channels := by
  unfold State.defineRegion; (try dsimp only); (repeat' split) <;> simp
@[simp] theorem State.defineRegion_bond (s : State) (i : Nat) (r : Region) : (s.defineRegion i r).bond = s.bond := by
  unfold State.defineRegion; (try dsimp only); (repeat' split) <;> simp
@[simp] theorem State.defineRegion_tracker (s : State) (i : Nat) (r : Region) : (s.defineRegion i r).tracker = s.tracker := by
  unfold State.defineRegion; (try dsimp only); (repeat' split) <;> simp
@[simp] theorem State.defineRegion_pull (s : State) (i : Nat) (r : Region) : (s.defineRegion i r).pull = s.pull := by
  unfold State.defineRegion; (try dsimp only); (repeat' split) <;> simp
@[simp] theorem State.defineRegion_hold (s : State) (i : Nat) (r : Region) : (s.defineRegion i r).hold = s.hold := by
  unfold State.defineRegion; (try dsimp only); (repeat' split) <;> simp
@[simp] theorem State.defineRegion_pending (s : State) (i : Nat) (r : Region) : (s.defineRegion i r).pending = s.pending := by
  unfold State.defineRegion; (try dsimp only); (repeat' split) <;> simp

@[simp] theorem State.emptyCaptures_ports (s : State) : (s.emptyCaptures).ports = s.ports := by
  unfold State.emptyCaptures; (try dsimp only); (repeat' split) <;> simp
@[simp] theorem State.emptyCaptures_programs (s : State) : (s.emptyCaptures).programs = s.programs := by
  unfold State.emptyCaptures; (try dsimp only); (repeat' split) <;> simp
@[simp] theorem State.emptyCaptures_map (s : State) : (s.emptyCaptures).map = s.map := by
  unfold State.emptyCaptures; (try dsimp only); (repeat' split) <;> simp
@[simp] theorem State.emptyCaptures_issuer (s : State) : (s.emptyCaptures).issuer = s.issuer := by
  unfold State.emptyCaptures; (try dsimp only); (repeat' split) <;> simp
@[simp] theorem State.emptyCaptures_links (s : State) : (s.emptyCaptures).links = s.links := by
  unfold State.emptyCaptures; (try dsimp only); (repeat' split) <;> simp
@[simp] theorem State.emptyCaptures_bond (s : State) : (s.emptyCaptures).bond = s.bond := by
  unfold State.emptyCaptures; (try dsimp only); (repeat' split) <;> simp
@[simp] theorem State.emptyCaptures_tracker (s : State) : (s.emptyCaptures).tracker = s.tracker := by
  unfold State.emptyCaptures; (try dsimp only); (repeat' split) <;> simp
@[simp] theorem State.emptyCaptures_pull (s : State) : (s.emptyCaptures).pull = s.pull := by
  unfold State.emptyCaptures; (try dsimp only); (repeat' split) <;> simp
@[simp] theorem State.emptyCaptures_hold (s : State) : (s.emptyCaptures).hold = s.hold := by
  unfold State.emptyCaptures; (try dsimp only); (repeat' split) <;> simp
@[simp] theorem State.emptyCaptures_screen (s : State) : (s.emptyCaptures).screen = s.screen := by
  unfold State.emptyCaptures; (try dsimp only); (repeat' split) <;> simp
@[simp] theorem State.emptyCaptures_pending (s : State) : (s.emptyCaptures).pending = s.pending := by
  unfold State.emptyCaptures; (try dsimp only); (repeat' split) <;> simp

@[simp] theorem State.discardWork_ports (s : State) : (s.discardWork).ports = s.ports := by
  unfold State.discardWork; (try dsimp only); (repeat' split) <;> simp
@[simp] theorem State.discardWork_links (s : State) : (s.discardWork).links = s.links := by
  unfold State.discardWork; (try dsimp only); (repeat' split) <;> simp
@[simp] theorem State.discardWork_hold (s : State) : (s.discardWork).hold = s.hold := by
  unfold State.discardWork; (try dsimp only); (repeat' split) <;> simp
@[simp] theorem State.discardWork_screen (s : State) : (s.discardWork).screen = s.screen := by
  unfold State.discardWork; (try dsimp only); (repeat' split) <;> simp
@[simp] theorem State.discardWork_pending (s : State) : (s.discardWork).pending = s.pending := by
  unfold State.discardWork; (try dsimp only); (repeat' split) <;> simp

@[simp] theorem State.unknownCommand_programs (s : State) (p : PortId) : (s.unknownCommand p).programs = s.programs := by
  unfold State.unknownCommand; (try dsimp only); (repeat' split) <;> simp
@[simp] theorem State.unknownCommand_map (s : State) (p : PortId) : (s.unknownCommand p).map = s.map := by
  unfold State.unknownCommand; (try dsimp only); (repeat' split) <;> simp
@[simp] theorem State.unknownCommand_issuer (s : State) (p : PortId) : (s.unknownCommand p).issuer = s.issuer := by
  unfold State.unknownCommand; (try dsimp only); (repeat' split) <;> simp
@[simp] theorem State.unknownCommand_links (s : State) (p : PortId) : (s.unknownCommand p).links = s.links := by
  unfold State.unknownCommand; (try dsimp only); (repeat' split) <;> simp
@[simp] theorem State.unknownCommand_channels (s : State) (p : PortId) : (s.unknownCommand p).channels = s.channels := by
  unfold State.unknownCommand; (try dsimp only); (repeat' split) <;> simp
@[simp] theorem State.unknownCommand_bond (s : State) (p : PortId) : (s.unknownCommand p).bond = s.bond := by
  unfold State.unknownCommand; (try dsimp only); (repeat' split) <;> simp
@[simp] theorem State.unknownCommand_tracker (s : State) (p : PortId) : (s.unknownCommand p).tracker = s.tracker := by
  unfold State.unknownCommand; (try dsimp only); (repeat' split) <;> simp
@[simp] theorem State.unknownCommand_pull (s : State) (p : PortId) : (s.unknownCommand p).pull = s.pull := by
  unfold State.unknownCommand; (try dsimp only); (repeat' split) <;> simp
@[simp] theorem State.unknownCommand_hold (s : State) (p : PortId) : (s.unknownCommand p).hold = s.hold := by
  unfold State.unknownCommand; (try dsimp only); (repeat' split) <;> simp
@[simp] theorem State.unknownCommand_screen (s : State) (p : PortId) : (s.unknownCommand p).screen = s.screen := by
  unfold State.unknownCommand; (try dsimp only); (repeat' split) <;> simp
@[simp] theorem State.unknownCommand_pending (s : State) (p : PortId) : (s.unknownCommand p).pending = s.pending := by
  unfold State.unknownCommand; (try dsimp only); (repeat' split) <;> simp

@[simp] theorem State.commandByte_programs (s : State) (p : PortId) (c : Cmd) : (s.commandByte p c).programs = s.programs := by
  unfold State.commandByte; (try dsimp only); (repeat' split) <;> simp
@[simp] theorem State.commandByte_map (s : State) (p : PortId) (c : Cmd) : (s.commandByte p c).map = s.map := by
  unfold State.commandByte; (try dsimp only); (repeat' split) <;> simp
@[simp] theorem State.commandByte_issuer (s : State) (p : PortId) (c : Cmd) : (s.commandByte p c).issuer = s.issuer := by
  unfold State.commandByte; (try dsimp only); (repeat' split) <;> simp
@[simp] theorem State.commandByte_links (s : State) (p : PortId) (c : Cmd) : (s.commandByte p c).links = s.links := by
  unfold State.commandByte; (try dsimp only); (repeat' split) <;> simp
@[simp] theorem State.commandByte_channels (s : State) (p : PortId) (c : Cmd) : (s.commandByte p c).channels = s.channels := by
  unfold State.commandByte; (try dsimp only); (repeat' split) <;> simp
@[simp] theorem State.commandByte_bond (s : State) (p : PortId) (c : Cmd) : (s.commandByte p c).bond = s.bond := by
  unfold State.commandByte; (try dsimp only); (repeat' split) <;> simp
@[simp] theorem State.commandByte_tracker (s : State) (p : PortId) (c : Cmd) : (s.commandByte p c).tracker = s.tracker := by
  unfold State.commandByte; (try dsimp only); (repeat' split) <;> simp
@[simp] theorem State.commandByte_pull (s : State) (p : PortId) (c : Cmd) : (s.commandByte p c).pull = s.pull := by
  unfold State.commandByte; (try dsimp only); (repeat' split) <;> simp
@[simp] theorem State.commandByte_hold (s : State) (p : PortId) (c : Cmd) : (s.commandByte p c).hold = s.hold := by
  unfold State.commandByte; (try dsimp only); (repeat' split) <;> simp
@[simp] theorem State.commandByte_screen (s : State) (p : PortId) (c : Cmd) : (s.commandByte p c).screen = s.screen := by
  unfold State.commandByte; (try dsimp only); (repeat' split) <;> simp
@[simp] theorem State.commandByte_pending (s : State) (p : PortId) (c : Cmd) : (s.commandByte p c).pending = s.pending := by
  unfold State.commandByte; (try dsimp only); (repeat' split) <;> simp

@[simp] theorem State.takeWtxtHeader_programs (s : State) (p : PortId) (l : List Byte) : (s.takeWtxtHeader p l).programs = s.programs := by
  unfold State.takeWtxtHeader; (try dsimp only); (repeat' split) <;> simp
@[simp] theorem State.takeWtxtHeader_map (s : State) (p : PortId) (l : List Byte) : (s.takeWtxtHeader p l).map = s.map := by
  unfold State.takeWtxtHeader; (try dsimp only); (repeat' split) <;> simp
@[simp] theorem State.takeWtxtHeader_issuer (s : State) (p : PortId) (l : List Byte) : (s.takeWtxtHeader p l).issuer = s.issuer := by
  unfold State.takeWtxtHeader; (try dsimp only); (repeat' split) <;> simp
@[simp] theorem State.takeWtxtHeader_links (s : State) (p : PortId) (l : List Byte) : (s.takeWtxtHeader p l).links = s.links := by
  unfold State.takeWtxtHeader; (try dsimp only); (repeat' split) <;> simp
@[simp] theorem State.takeWtxtHeader_channels (s : State) (p : PortId) (l : List Byte) : (s.takeWtxtHeader p l).channels = s.channels := by
  unfold State.takeWtxtHeader; (try dsimp only); (repeat' split) <;> simp
@[simp] theorem State.takeWtxtHeader_bond (s : State) (p : PortId) (l : List Byte) : (s.takeWtxtHeader p l).bond = s.bond := by
  unfold State.takeWtxtHeader; (try dsimp only); (repeat' split) <;> simp
@[simp] theorem State.takeWtxtHeader_tracker (s : State) (p : PortId) (l : List Byte) : (s.takeWtxtHeader p l).tracker = s.tracker := by
  unfold State.takeWtxtHeader; (try dsimp only); (repeat' split) <;> simp
@[simp] theorem State.takeWtxtHeader_pull (s : State) (p : PortId) (l : List Byte) : (s.takeWtxtHeader p l).pull = s.pull := by
  unfold State.takeWtxtHeader; (try dsimp only); (repeat' split) <;> simp
@[simp] theorem State.takeWtxtHeader_hold (s : State) (p : PortId) (l : List Byte) : (s.takeWtxtHeader p l).hold = s.hold := by
  unfold State.takeWtxtHeader; (try dsimp only); (repeat' split) <;> simp
@[simp] theorem State.takeWtxtHeader_screen (s : State) (p : PortId) (l : List Byte) : (s.takeWtxtHeader p l).screen = s.screen := by
  unfold State.takeWtxtHeader; (try dsimp only); (repeat' split) <;> simp
@[simp] theorem State.takeWtxtHeader_pending (s : State) (p : PortId) (l : List Byte) : (s.takeWtxtHeader p l).pending = s.pending := by
  unfold State.takeWtxtHeader; (try dsimp only); (repeat' split) <;> simp

@[simp] theorem State.takeText_programs (s : State) (p : PortId) (i c r : Nat) (a : Attr) (x : Byte) : (s.takeText p i c r a x).programs = s.programs := by
  unfold State.takeText; (try dsimp only); (repeat' split) <;> simp
@[simp] theorem State.takeText_map (s : State) (p : PortId) (i c r : Nat) (a : Attr) (x : Byte) : (s.takeText p i c r a x).map = s.map := by
  unfold State.takeText; (try dsimp only); (repeat' split) <;> simp
@[simp] theorem State.takeText_issuer (s : State) (p : PortId) (i c r : Nat) (a : Attr) (x : Byte) : (s.takeText p i c r a x).issuer = s.issuer := by
  unfold State.takeText; (try dsimp only); (repeat' split) <;> simp
@[simp] theorem State.takeText_links (s : State) (p : PortId) (i c r : Nat) (a : Attr) (x : Byte) : (s.takeText p i c r a x).links = s.links := by
  unfold State.takeText; (try dsimp only); (repeat' split) <;> simp
@[simp] theorem State.takeText_channels (s : State) (p : PortId) (i c r : Nat) (a : Attr) (x : Byte) : (s.takeText p i c r a x).channels = s.channels := by
  unfold State.takeText; (try dsimp only); (repeat' split) <;> simp
@[simp] theorem State.takeText_bond (s : State) (p : PortId) (i c r : Nat) (a : Attr) (x : Byte) : (s.takeText p i c r a x).bond = s.bond := by
  unfold State.takeText; (try dsimp only); (repeat' split) <;> simp
@[simp] theorem State.takeText_tracker (s : State) (p : PortId) (i c r : Nat) (a : Attr) (x : Byte) : (s.takeText p i c r a x).tracker = s.tracker := by
  unfold State.takeText; (try dsimp only); (repeat' split) <;> simp
@[simp] theorem State.takeText_pull (s : State) (p : PortId) (i c r : Nat) (a : Attr) (x : Byte) : (s.takeText p i c r a x).pull = s.pull := by
  unfold State.takeText; (try dsimp only); (repeat' split) <;> simp
@[simp] theorem State.takeText_hold (s : State) (p : PortId) (i c r : Nat) (a : Attr) (x : Byte) : (s.takeText p i c r a x).hold = s.hold := by
  unfold State.takeText; (try dsimp only); (repeat' split) <;> simp
@[simp] theorem State.takeText_pending (s : State) (p : PortId) (i c r : Nat) (a : Attr) (x : Byte) : (s.takeText p i c r a x).pending = s.pending := by
  unfold State.takeText; (try dsimp only); (repeat' split) <;> simp

@[simp] theorem State.finish_ports (s t : State) : (s.finish t).ports = t.ports := rfl
@[simp] theorem State.finish_programs (s t : State) : (s.finish t).programs = t.programs := rfl
@[simp] theorem State.finish_map (s t : State) : (s.finish t).map = t.map := rfl
@[simp] theorem State.finish_issuer (s t : State) : (s.finish t).issuer = t.issuer := rfl
@[simp] theorem State.finish_links (s t : State) : (s.finish t).links = t.links := rfl
@[simp] theorem State.finish_channels (s t : State) : (s.finish t).channels = t.channels := rfl
@[simp] theorem State.finish_bond (s t : State) : (s.finish t).bond = t.bond := rfl
@[simp] theorem State.finish_tracker (s t : State) : (s.finish t).tracker = t.tracker := rfl
@[simp] theorem State.finish_pull (s t : State) : (s.finish t).pull = t.pull := rfl
@[simp] theorem State.finish_hold (s t : State) : (s.finish t).hold = t.hold := rfl
@[simp] theorem State.finish_pending (s t : State) : (s.finish t).pending = t.pending := rfl

end Sys2Proof.Machine
end

