-- ==== Sys2Proof/Laws/Commands.lean ====
section
/-! SUPPORT. What each command and event leaves as it was: one lemma for each and each field it does not touch. -/

set_option Elab.async false
set_option linter.all false

namespace Sys2Proof.Machine

/-- A part of the state that no step of a fold changes. -/
theorem foldl_same {α β : Type} (g : State → β) (f : State → α → State) (h : ∀ s x, g (f s x) = g s) (l : List α) (s : State) :
    g (l.foldl f s) = g s := by
  induction l generalizing s with
  | nil => rfl
  | cons x l ih => exact (ih _).trans (h s x)

@[simp] theorem doStat_programs (p : PortId) (s : State) : (doStat p s).programs = s.programs := by
  unfold doStat; (try dsimp only); (repeat' split) <;> simp
@[simp] theorem doStat_map (p : PortId) (s : State) : (doStat p s).map = s.map := by
  unfold doStat; (try dsimp only); (repeat' split) <;> simp
@[simp] theorem doStat_issuer (p : PortId) (s : State) : (doStat p s).issuer = s.issuer := by
  unfold doStat; (try dsimp only); (repeat' split) <;> simp
@[simp] theorem doStat_links (p : PortId) (s : State) : (doStat p s).links = s.links := by
  unfold doStat; (try dsimp only); (repeat' split) <;> simp
@[simp] theorem doStat_channels (p : PortId) (s : State) : (doStat p s).channels = s.channels := by
  unfold doStat; (try dsimp only); (repeat' split) <;> simp
@[simp] theorem doStat_bond (p : PortId) (s : State) : (doStat p s).bond = s.bond := by
  unfold doStat; (try dsimp only); (repeat' split) <;> simp
@[simp] theorem doStat_tracker (p : PortId) (s : State) : (doStat p s).tracker = s.tracker := by
  unfold doStat; (try dsimp only); (repeat' split) <;> simp
@[simp] theorem doStat_pull (p : PortId) (s : State) : (doStat p s).pull = s.pull := by
  unfold doStat; (try dsimp only); (repeat' split) <;> simp
@[simp] theorem doStat_hold (p : PortId) (s : State) : (doStat p s).hold = s.hold := by
  unfold doStat; (try dsimp only); (repeat' split) <;> simp
@[simp] theorem doStat_screen (p : PortId) (s : State) : (doStat p s).screen = s.screen := by
  unfold doStat; (try dsimp only); (repeat' split) <;> simp
@[simp] theorem doStat_pending (p : PortId) (s : State) : (doStat p s).pending = s.pending := by
  unfold doStat; (try dsimp only); (repeat' split) <;> simp

@[simp] theorem doNote_programs (p : PortId) (k : Nat) (s : State) : (doNote p k s).programs = s.programs := by
  unfold doNote; (try dsimp only); (repeat' split) <;> simp
@[simp] theorem doNote_map (p : PortId) (k : Nat) (s : State) : (doNote p k s).map = s.map := by
  unfold doNote; (try dsimp only); (repeat' split) <;> simp
@[simp] theorem doNote_issuer (p : PortId) (k : Nat) (s : State) : (doNote p k s).issuer = s.issuer := by
  unfold doNote; (try dsimp only); (repeat' split) <;> simp
@[simp] theorem doNote_links (p : PortId) (k : Nat) (s : State) : (doNote p k s).links = s.links := by
  unfold doNote; (try dsimp only); (repeat' split) <;> simp
@[simp] theorem doNote_channels (p : PortId) (k : Nat) (s : State) : (doNote p k s).channels = s.channels := by
  unfold doNote; (try dsimp only); (repeat' split) <;> simp
@[simp] theorem doNote_bond (p : PortId) (k : Nat) (s : State) : (doNote p k s).bond = s.bond := by
  unfold doNote; (try dsimp only); (repeat' split) <;> simp
@[simp] theorem doNote_tracker (p : PortId) (k : Nat) (s : State) : (doNote p k s).tracker = s.tracker := by
  unfold doNote; (try dsimp only); (repeat' split) <;> simp
@[simp] theorem doNote_pull (p : PortId) (k : Nat) (s : State) : (doNote p k s).pull = s.pull := by
  unfold doNote; (try dsimp only); (repeat' split) <;> simp
@[simp] theorem doNote_hold (p : PortId) (k : Nat) (s : State) : (doNote p k s).hold = s.hold := by
  unfold doNote; (try dsimp only); (repeat' split) <;> simp
@[simp] theorem doNote_screen (p : PortId) (k : Nat) (s : State) : (doNote p k s).screen = s.screen := by
  unfold doNote; (try dsimp only); (repeat' split) <;> simp
@[simp] theorem doNote_pending (p : PortId) (k : Nat) (s : State) : (doNote p k s).pending = s.pending := by
  unfold doNote; (try dsimp only); (repeat' split) <;> simp

@[simp] theorem doRun_programs (p : PortId) (a b c d e f : Nat) (h : Head) (s : State) : (doRun p a b c d e f h s).programs = s.programs := by
  unfold doRun; (try dsimp only); (repeat' split) <;> simp
@[simp] theorem doRun_map (p : PortId) (a b c d e f : Nat) (h : Head) (s : State) : (doRun p a b c d e f h s).map = s.map := by
  unfold doRun; (try dsimp only); (repeat' split) <;> simp
@[simp] theorem doRun_links (p : PortId) (a b c d e f : Nat) (h : Head) (s : State) : (doRun p a b c d e f h s).links = s.links := by
  unfold doRun; (try dsimp only); (repeat' split) <;> simp
@[simp] theorem doRun_channels (p : PortId) (a b c d e f : Nat) (h : Head) (s : State) : (doRun p a b c d e f h s).channels = s.channels := by
  unfold doRun; (try dsimp only); (repeat' split) <;> simp
@[simp] theorem doRun_bond (p : PortId) (a b c d e f : Nat) (h : Head) (s : State) : (doRun p a b c d e f h s).bond = s.bond := by
  unfold doRun; (try dsimp only); (repeat' split) <;> simp
@[simp] theorem doRun_tracker (p : PortId) (a b c d e f : Nat) (h : Head) (s : State) : (doRun p a b c d e f h s).tracker = s.tracker := by
  unfold doRun; (try dsimp only); (repeat' split) <;> simp
@[simp] theorem doRun_pull (p : PortId) (a b c d e f : Nat) (h : Head) (s : State) : (doRun p a b c d e f h s).pull = s.pull := by
  unfold doRun; (try dsimp only); (repeat' split) <;> simp
@[simp] theorem doRun_screen (p : PortId) (a b c d e f : Nat) (h : Head) (s : State) : (doRun p a b c d e f h s).screen = s.screen := by
  unfold doRun; (try dsimp only); (repeat' split) <;> simp
@[simp] theorem doRun_pending (p : PortId) (a b c d e f : Nat) (h : Head) (s : State) : (doRun p a b c d e f h s).pending = s.pending := by
  unfold doRun; (try dsimp only); (repeat' split) <;> simp

@[simp] theorem doHalt_programs (p : PortId) (h : Head) (s : State) : (doHalt p h s).programs = s.programs := by
  unfold doHalt; (try dsimp only); (repeat' split) <;> simp
@[simp] theorem doHalt_map (p : PortId) (h : Head) (s : State) : (doHalt p h s).map = s.map := by
  unfold doHalt; (try dsimp only); (repeat' split) <;> simp
@[simp] theorem doHalt_links (p : PortId) (h : Head) (s : State) : (doHalt p h s).links = s.links := by
  unfold doHalt; (try dsimp only); (repeat' split) <;> simp
@[simp] theorem doHalt_channels (p : PortId) (h : Head) (s : State) : (doHalt p h s).channels = s.channels := by
  unfold doHalt; (try dsimp only); (repeat' split) <;> simp
@[simp] theorem doHalt_bond (p : PortId) (h : Head) (s : State) : (doHalt p h s).bond = s.bond := by
  unfold doHalt; (try dsimp only); (repeat' split) <;> simp
@[simp] theorem doHalt_tracker (p : PortId) (h : Head) (s : State) : (doHalt p h s).tracker = s.tracker := by
  unfold doHalt; (try dsimp only); (repeat' split) <;> simp
@[simp] theorem doHalt_pull (p : PortId) (h : Head) (s : State) : (doHalt p h s).pull = s.pull := by
  unfold doHalt; (try dsimp only); (repeat' split) <;> simp
@[simp] theorem doHalt_hold (p : PortId) (h : Head) (s : State) : (doHalt p h s).hold = s.hold := by
  unfold doHalt; (try dsimp only); (repeat' split) <;> simp
@[simp] theorem doHalt_screen (p : PortId) (h : Head) (s : State) : (doHalt p h s).screen = s.screen := by
  unfold doHalt; (try dsimp only); (repeat' split) <;> simp
@[simp] theorem doHalt_pending (p : PortId) (h : Head) (s : State) : (doHalt p h s).pending = s.pending := by
  unfold doHalt; (try dsimp only); (repeat' split) <;> simp

@[simp] theorem doNext_programs (p : PortId) (h : Head) (s : State) : (doNext p h s).programs = s.programs := by
  unfold doNext; (try dsimp only); (repeat' split) <;> simp
@[simp] theorem doNext_map (p : PortId) (h : Head) (s : State) : (doNext p h s).map = s.map := by
  unfold doNext; (try dsimp only); (repeat' split) <;> simp
@[simp] theorem doNext_links (p : PortId) (h : Head) (s : State) : (doNext p h s).links = s.links := by
  unfold doNext; (try dsimp only); (repeat' split) <;> simp
@[simp] theorem doNext_channels (p : PortId) (h : Head) (s : State) : (doNext p h s).channels = s.channels := by
  unfold doNext; (try dsimp only); (repeat' split) <;> simp
@[simp] theorem doNext_bond (p : PortId) (h : Head) (s : State) : (doNext p h s).bond = s.bond := by
  unfold doNext; (try dsimp only); (repeat' split) <;> simp
@[simp] theorem doNext_tracker (p : PortId) (h : Head) (s : State) : (doNext p h s).tracker = s.tracker := by
  unfold doNext; (try dsimp only); (repeat' split) <;> simp
@[simp] theorem doNext_pull (p : PortId) (h : Head) (s : State) : (doNext p h s).pull = s.pull := by
  unfold doNext; (try dsimp only); (repeat' split) <;> simp
@[simp] theorem doNext_hold (p : PortId) (h : Head) (s : State) : (doNext p h s).hold = s.hold := by
  unfold doNext; (try dsimp only); (repeat' split) <;> simp
@[simp] theorem doNext_screen (p : PortId) (h : Head) (s : State) : (doNext p h s).screen = s.screen := by
  unfold doNext; (try dsimp only); (repeat' split) <;> simp
@[simp] theorem doNext_pending (p : PortId) (h : Head) (s : State) : (doNext p h s).pending = s.pending := by
  unfold doNext; (try dsimp only); (repeat' split) <;> simp

@[simp] theorem doClaim_programs (p : PortId) (u w : Nat) (h : Head) (s : State) : (doClaim p u w h s).programs = s.programs := by
  unfold doClaim; (try dsimp only); (repeat' split) <;> simp
@[simp] theorem doClaim_map (p : PortId) (u w : Nat) (h : Head) (s : State) : (doClaim p u w h s).map = s.map := by
  unfold doClaim; (try dsimp only); (repeat' split) <;> simp
@[simp] theorem doClaim_links (p : PortId) (u w : Nat) (h : Head) (s : State) : (doClaim p u w h s).links = s.links := by
  unfold doClaim; (try dsimp only); (repeat' split) <;> simp
@[simp] theorem doClaim_channels (p : PortId) (u w : Nat) (h : Head) (s : State) : (doClaim p u w h s).channels = s.channels := by
  unfold doClaim; (try dsimp only); (repeat' split) <;> simp
@[simp] theorem doClaim_bond (p : PortId) (u w : Nat) (h : Head) (s : State) : (doClaim p u w h s).bond = s.bond := by
  unfold doClaim; (try dsimp only); (repeat' split) <;> simp
@[simp] theorem doClaim_tracker (p : PortId) (u w : Nat) (h : Head) (s : State) : (doClaim p u w h s).tracker = s.tracker := by
  unfold doClaim; (try dsimp only); (repeat' split) <;> simp
@[simp] theorem doClaim_pull (p : PortId) (u w : Nat) (h : Head) (s : State) : (doClaim p u w h s).pull = s.pull := by
  unfold doClaim; (try dsimp only); (repeat' split) <;> simp
@[simp] theorem doClaim_hold (p : PortId) (u w : Nat) (h : Head) (s : State) : (doClaim p u w h s).hold = s.hold := by
  unfold doClaim; (try dsimp only); (repeat' split) <;> simp
@[simp] theorem doClaim_screen (p : PortId) (u w : Nat) (h : Head) (s : State) : (doClaim p u w h s).screen = s.screen := by
  unfold doClaim; (try dsimp only); (repeat' split) <;> simp
@[simp] theorem doClaim_pending (p : PortId) (u w : Nat) (h : Head) (s : State) : (doClaim p u w h s).pending = s.pending := by
  unfold doClaim; (try dsimp only); (repeat' split) <;> simp

@[simp] theorem doCancel_programs (p : PortId) (n : Nat) (h : Head) (s : State) : (doCancel p n h s).programs = s.programs := by
  unfold doCancel; (try dsimp only); (repeat' split) <;> simp
@[simp] theorem doCancel_links (p : PortId) (n : Nat) (h : Head) (s : State) : (doCancel p n h s).links = s.links := by
  unfold doCancel; (try dsimp only); (repeat' split) <;> simp
@[simp] theorem doCancel_channels (p : PortId) (n : Nat) (h : Head) (s : State) : (doCancel p n h s).channels = s.channels := by
  unfold doCancel; (try dsimp only); (repeat' split) <;> simp
@[simp] theorem doCancel_pull (p : PortId) (n : Nat) (h : Head) (s : State) : (doCancel p n h s).pull = s.pull := by
  unfold doCancel; (try dsimp only); (repeat' split) <;> simp
@[simp] theorem doCancel_hold (p : PortId) (n : Nat) (h : Head) (s : State) : (doCancel p n h s).hold = s.hold := by
  unfold doCancel; (try dsimp only); (repeat' split) <;> simp
@[simp] theorem doCancel_screen (p : PortId) (n : Nat) (h : Head) (s : State) : (doCancel p n h s).screen = s.screen := by
  unfold doCancel; (try dsimp only); (repeat' split) <;> simp
@[simp] theorem doCancel_pending (p : PortId) (n : Nat) (h : Head) (s : State) : (doCancel p n h s).pending = s.pending := by
  unfold doCancel; (try dsimp only); (repeat' split) <;> simp

@[simp] theorem doArm_programs (p : PortId) (n : Nat) (h : Head) (s : State) : (doArm p n h s).programs = s.programs := by
  unfold doArm; (try dsimp only); (repeat' split) <;> simp
@[simp] theorem doArm_map (p : PortId) (n : Nat) (h : Head) (s : State) : (doArm p n h s).map = s.map := by
  unfold doArm; (try dsimp only); (repeat' split) <;> simp
@[simp] theorem doArm_issuer (p : PortId) (n : Nat) (h : Head) (s : State) : (doArm p n h s).issuer = s.issuer := by
  unfold doArm; (try dsimp only); (repeat' split) <;> simp
@[simp] theorem doArm_links (p : PortId) (n : Nat) (h : Head) (s : State) : (doArm p n h s).links = s.links := by
  unfold doArm; (try dsimp only); (repeat' split) <;> simp
@[simp] theorem doArm_channels (p : PortId) (n : Nat) (h : Head) (s : State) : (doArm p n h s).channels = s.channels := by
  unfold doArm; (try dsimp only); (repeat' split) <;> simp
@[simp] theorem doArm_tracker (p : PortId) (n : Nat) (h : Head) (s : State) : (doArm p n h s).tracker = s.tracker := by
  unfold doArm; (try dsimp only); (repeat' split) <;> simp
@[simp] theorem doArm_pull (p : PortId) (n : Nat) (h : Head) (s : State) : (doArm p n h s).pull = s.pull := by
  unfold doArm; (try dsimp only); (repeat' split) <;> simp
@[simp] theorem doArm_hold (p : PortId) (n : Nat) (h : Head) (s : State) : (doArm p n h s).hold = s.hold := by
  unfold doArm; (try dsimp only); (repeat' split) <;> simp
@[simp] theorem doArm_screen (p : PortId) (n : Nat) (h : Head) (s : State) : (doArm p n h s).screen = s.screen := by
  unfold doArm; (try dsimp only); (repeat' split) <;> simp
@[simp] theorem doArm_pending (p : PortId) (n : Nat) (h : Head) (s : State) : (doArm p n h s).pending = s.pending := by
  unfold doArm; (try dsimp only); (repeat' split) <;> simp

@[simp] theorem doDisarm_programs (p : PortId) (h : Head) (s : State) : (doDisarm p h s).programs = s.programs := by
  unfold doDisarm; (try dsimp only); (repeat' split) <;> simp
@[simp] theorem doDisarm_map (p : PortId) (h : Head) (s : State) : (doDisarm p h s).map = s.map := by
  unfold doDisarm; (try dsimp only); (repeat' split) <;> simp
@[simp] theorem doDisarm_issuer (p : PortId) (h : Head) (s : State) : (doDisarm p h s).issuer = s.issuer := by
  unfold doDisarm; (try dsimp only); (repeat' split) <;> simp
@[simp] theorem doDisarm_links (p : PortId) (h : Head) (s : State) : (doDisarm p h s).links = s.links := by
  unfold doDisarm; (try dsimp only); (repeat' split) <;> simp
@[simp] theorem doDisarm_channels (p : PortId) (h : Head) (s : State) : (doDisarm p h s).channels = s.channels := by
  unfold doDisarm; (try dsimp only); (repeat' split) <;> simp
@[simp] theorem doDisarm_tracker (p : PortId) (h : Head) (s : State) : (doDisarm p h s).tracker = s.tracker := by
  unfold doDisarm; (try dsimp only); (repeat' split) <;> simp
@[simp] theorem doDisarm_pull (p : PortId) (h : Head) (s : State) : (doDisarm p h s).pull = s.pull := by
  unfold doDisarm; (try dsimp only); (repeat' split) <;> simp
@[simp] theorem doDisarm_hold (p : PortId) (h : Head) (s : State) : (doDisarm p h s).hold = s.hold := by
  unfold doDisarm; (try dsimp only); (repeat' split) <;> simp
@[simp] theorem doDisarm_screen (p : PortId) (h : Head) (s : State) : (doDisarm p h s).screen = s.screen := by
  unfold doDisarm; (try dsimp only); (repeat' split) <;> simp
@[simp] theorem doDisarm_pending (p : PortId) (h : Head) (s : State) : (doDisarm p h s).pending = s.pending := by
  unfold doDisarm; (try dsimp only); (repeat' split) <;> simp

@[simp] theorem doFreset_programs (p : PortId) (h : Head) (s : State) : (doFreset p h s).programs = s.programs := by
  have h0 := foldl_same (·.programs) (fun (s : State) (t : Ticket) => s.cancelTicket h .freset t) (by simp)
  unfold doFreset; dsimp only at h0 ⊢; (repeat' split) <;> simp [h0]
@[simp] theorem doFreset_links (p : PortId) (h : Head) (s : State) : (doFreset p h s).links = s.links := by
  have h0 := foldl_same (·.links) (fun (s : State) (t : Ticket) => s.cancelTicket h .freset t) (by simp)
  unfold doFreset; dsimp only at h0 ⊢; (repeat' split) <;> simp [h0]
@[simp] theorem doFreset_channels (p : PortId) (h : Head) (s : State) : (doFreset p h s).channels = s.channels := by
  have h0 := foldl_same (·.channels) (fun (s : State) (t : Ticket) => s.cancelTicket h .freset t) (by simp)
  unfold doFreset; dsimp only at h0 ⊢; (repeat' split) <;> simp [h0]
@[simp] theorem doFreset_pull (p : PortId) (h : Head) (s : State) : (doFreset p h s).pull = s.pull := by
  have h0 := foldl_same (·.pull) (fun (s : State) (t : Ticket) => s.cancelTicket h .freset t) (by simp)
  unfold doFreset; dsimp only at h0 ⊢; (repeat' split) <;> simp [h0]
@[simp] theorem doFreset_hold (p : PortId) (h : Head) (s : State) : (doFreset p h s).hold = s.hold := by
  have h0 := foldl_same (·.hold) (fun (s : State) (t : Ticket) => s.cancelTicket h .freset t) (by simp)
  unfold doFreset; dsimp only at h0 ⊢; (repeat' split) <;> simp [h0]
@[simp] theorem doFreset_screen (p : PortId) (h : Head) (s : State) : (doFreset p h s).screen = s.screen := by
  have h0 := foldl_same (·.screen) (fun (s : State) (t : Ticket) => s.cancelTicket h .freset t) (by simp)
  unfold doFreset; dsimp only at h0 ⊢; (repeat' split) <;> simp [h0]
@[simp] theorem doFreset_pending (p : PortId) (h : Head) (s : State) : (doFreset p h s).pending = s.pending := by
  have h0 := foldl_same (·.pending) (fun (s : State) (t : Ticket) => s.cancelTicket h .freset t) (by simp)
  unfold doFreset; dsimp only at h0 ⊢; (repeat' split) <;> simp [h0]

@[simp] theorem doClrstop_programs (p : PortId) (h : Head) (s : State) : (doClrstop p h s).programs = s.programs := by
  unfold doClrstop; (try dsimp only); (repeat' split) <;> simp
@[simp] theorem doClrstop_map (p : PortId) (h : Head) (s : State) : (doClrstop p h s).map = s.map := by
  unfold doClrstop; (try dsimp only); (repeat' split) <;> simp
@[simp] theorem doClrstop_links (p : PortId) (h : Head) (s : State) : (doClrstop p h s).links = s.links := by
  unfold doClrstop; (try dsimp only); (repeat' split) <;> simp
@[simp] theorem doClrstop_channels (p : PortId) (h : Head) (s : State) : (doClrstop p h s).channels = s.channels := by
  unfold doClrstop; (try dsimp only); (repeat' split) <;> simp
@[simp] theorem doClrstop_bond (p : PortId) (h : Head) (s : State) : (doClrstop p h s).bond = s.bond := by
  unfold doClrstop; (try dsimp only); (repeat' split) <;> simp
@[simp] theorem doClrstop_tracker (p : PortId) (h : Head) (s : State) : (doClrstop p h s).tracker = s.tracker := by
  unfold doClrstop; (try dsimp only); (repeat' split) <;> simp
@[simp] theorem doClrstop_pull (p : PortId) (h : Head) (s : State) : (doClrstop p h s).pull = s.pull := by
  unfold doClrstop; (try dsimp only); (repeat' split) <;> simp
@[simp] theorem doClrstop_hold (p : PortId) (h : Head) (s : State) : (doClrstop p h s).hold = s.hold := by
  unfold doClrstop; (try dsimp only); (repeat' split) <;> simp
@[simp] theorem doClrstop_screen (p : PortId) (h : Head) (s : State) : (doClrstop p h s).screen = s.screen := by
  unfold doClrstop; (try dsimp only); (repeat' split) <;> simp
@[simp] theorem doClrstop_pending (p : PortId) (h : Head) (s : State) : (doClrstop p h s).pending = s.pending := by
  unfold doClrstop; (try dsimp only); (repeat' split) <;> simp

@[simp] theorem doHstat_programs (p : PortId) (h : Head) (s : State) : (doHstat p h s).programs = s.programs := by
  unfold doHstat; (try dsimp only); (repeat' split) <;> simp
@[simp] theorem doHstat_map (p : PortId) (h : Head) (s : State) : (doHstat p h s).map = s.map := by
  unfold doHstat; (try dsimp only); (repeat' split) <;> simp
@[simp] theorem doHstat_issuer (p : PortId) (h : Head) (s : State) : (doHstat p h s).issuer = s.issuer := by
  unfold doHstat; (try dsimp only); (repeat' split) <;> simp
@[simp] theorem doHstat_links (p : PortId) (h : Head) (s : State) : (doHstat p h s).links = s.links := by
  unfold doHstat; (try dsimp only); (repeat' split) <;> simp
@[simp] theorem doHstat_channels (p : PortId) (h : Head) (s : State) : (doHstat p h s).channels = s.channels := by
  unfold doHstat; (try dsimp only); (repeat' split) <;> simp
@[simp] theorem doHstat_bond (p : PortId) (h : Head) (s : State) : (doHstat p h s).bond = s.bond := by
  unfold doHstat; (try dsimp only); (repeat' split) <;> simp
@[simp] theorem doHstat_tracker (p : PortId) (h : Head) (s : State) : (doHstat p h s).tracker = s.tracker := by
  unfold doHstat; (try dsimp only); (repeat' split) <;> simp
@[simp] theorem doHstat_pull (p : PortId) (h : Head) (s : State) : (doHstat p h s).pull = s.pull := by
  unfold doHstat; (try dsimp only); (repeat' split) <;> simp
@[simp] theorem doHstat_hold (p : PortId) (h : Head) (s : State) : (doHstat p h s).hold = s.hold := by
  unfold doHstat; (try dsimp only); (repeat' split) <;> simp
@[simp] theorem doHstat_screen (p : PortId) (h : Head) (s : State) : (doHstat p h s).screen = s.screen := by
  unfold doHstat; (try dsimp only); (repeat' split) <;> simp
@[simp] theorem doHstat_pending (p : PortId) (h : Head) (s : State) : (doHstat p h s).pending = s.pending := by
  unfold doHstat; (try dsimp only); (repeat' split) <;> simp

@[simp] theorem doPload_map (p : PortId) (i : Nat) (w : W16) (a b c d e : Nat) (s : State) : (doPload p i w a b c d e s).map = s.map := by
  unfold doPload; (try dsimp only); (repeat' split) <;> simp
@[simp] theorem doPload_issuer (p : PortId) (i : Nat) (w : W16) (a b c d e : Nat) (s : State) : (doPload p i w a b c d e s).issuer = s.issuer := by
  unfold doPload; (try dsimp only); (repeat' split) <;> simp
@[simp] theorem doPload_links (p : PortId) (i : Nat) (w : W16) (a b c d e : Nat) (s : State) : (doPload p i w a b c d e s).links = s.links := by
  unfold doPload; (try dsimp only); (repeat' split) <;> simp
@[simp] theorem doPload_channels (p : PortId) (i : Nat) (w : W16) (a b c d e : Nat) (s : State) : (doPload p i w a b c d e s).channels = s.channels := by
  unfold doPload; (try dsimp only); (repeat' split) <;> simp
@[simp] theorem doPload_bond (p : PortId) (i : Nat) (w : W16) (a b c d e : Nat) (s : State) : (doPload p i w a b c d e s).bond = s.bond := by
  unfold doPload; (try dsimp only); (repeat' split) <;> simp
@[simp] theorem doPload_tracker (p : PortId) (i : Nat) (w : W16) (a b c d e : Nat) (s : State) : (doPload p i w a b c d e s).tracker = s.tracker := by
  unfold doPload; (try dsimp only); (repeat' split) <;> simp
@[simp] theorem doPload_pull (p : PortId) (i : Nat) (w : W16) (a b c d e : Nat) (s : State) : (doPload p i w a b c d e s).pull = s.pull := by
  unfold doPload; (try dsimp only); (repeat' split) <;> simp
@[simp] theorem doPload_hold (p : PortId) (i : Nat) (w : W16) (a b c d e : Nat) (s : State) : (doPload p i w a b c d e s).hold = s.hold := by
  unfold doPload; (try dsimp only); (repeat' split) <;> simp
@[simp] theorem doPload_screen (p : PortId) (i : Nat) (w : W16) (a b c d e : Nat) (s : State) : (doPload p i w a b c d e s).screen = s.screen := by
  unfold doPload; (try dsimp only); (repeat' split) <;> simp
@[simp] theorem doPload_pending (p : PortId) (i : Nat) (w : W16) (a b c d e : Nat) (s : State) : (doPload p i w a b c d e s).pending = s.pending := by
  unfold doPload; (try dsimp only); (repeat' split) <;> simp

@[simp] theorem doLimset_map (p : PortId) (i : Nat) (a b : PhaseLimits) (n : Nat) (s : State) : (doLimset p i a b n s).map = s.map := by
  unfold doLimset; (try dsimp only); (repeat' split) <;> simp
@[simp] theorem doLimset_issuer (p : PortId) (i : Nat) (a b : PhaseLimits) (n : Nat) (s : State) : (doLimset p i a b n s).issuer = s.issuer := by
  unfold doLimset; (try dsimp only); (repeat' split) <;> simp
@[simp] theorem doLimset_links (p : PortId) (i : Nat) (a b : PhaseLimits) (n : Nat) (s : State) : (doLimset p i a b n s).links = s.links := by
  unfold doLimset; (try dsimp only); (repeat' split) <;> simp
@[simp] theorem doLimset_channels (p : PortId) (i : Nat) (a b : PhaseLimits) (n : Nat) (s : State) : (doLimset p i a b n s).channels = s.channels := by
  unfold doLimset; (try dsimp only); (repeat' split) <;> simp
@[simp] theorem doLimset_bond (p : PortId) (i : Nat) (a b : PhaseLimits) (n : Nat) (s : State) : (doLimset p i a b n s).bond = s.bond := by
  unfold doLimset; (try dsimp only); (repeat' split) <;> simp
@[simp] theorem doLimset_tracker (p : PortId) (i : Nat) (a b : PhaseLimits) (n : Nat) (s : State) : (doLimset p i a b n s).tracker = s.tracker := by
  unfold doLimset; (try dsimp only); (repeat' split) <;> simp
@[simp] theorem doLimset_pull (p : PortId) (i : Nat) (a b : PhaseLimits) (n : Nat) (s : State) : (doLimset p i a b n s).pull = s.pull := by
  unfold doLimset; (try dsimp only); (repeat' split) <;> simp
@[simp] theorem doLimset_hold (p : PortId) (i : Nat) (a b : PhaseLimits) (n : Nat) (s : State) : (doLimset p i a b n s).hold = s.hold := by
  unfold doLimset; (try dsimp only); (repeat' split) <;> simp
@[simp] theorem doLimset_screen (p : PortId) (i : Nat) (a b : PhaseLimits) (n : Nat) (s : State) : (doLimset p i a b n s).screen = s.screen := by
  unfold doLimset; (try dsimp only); (repeat' split) <;> simp
@[simp] theorem doLimset_pending (p : PortId) (i : Nat) (a b : PhaseLimits) (n : Nat) (s : State) : (doLimset p i a b n s).pending = s.pending := by
  unfold doLimset; (try dsimp only); (repeat' split) <;> simp

@[simp] theorem doPsel_links (p : PortId) (v : Nat) (s : State) : (doPsel p v s).links = s.links := by
  unfold doPsel; (try dsimp only); (repeat' split) <;> simp
@[simp] theorem doPsel_channels (p : PortId) (v : Nat) (s : State) : (doPsel p v s).channels = s.channels := by
  unfold doPsel; (try dsimp only); (repeat' split) <;> simp
@[simp] theorem doPsel_bond (p : PortId) (v : Nat) (s : State) : (doPsel p v s).bond = s.bond := by
  unfold doPsel; (try dsimp only); (repeat' split) <;> simp
@[simp] theorem doPsel_hold (p : PortId) (v : Nat) (s : State) : (doPsel p v s).hold = s.hold := by
  unfold doPsel; (try dsimp only); (repeat' split) <;> simp
@[simp] theorem doPsel_screen (p : PortId) (v : Nat) (s : State) : (doPsel p v s).screen = s.screen := by
  unfold doPsel; (try dsimp only); (repeat' split) <;> simp
@[simp] theorem doPsel_pending (p : PortId) (v : Nat) (s : State) : (doPsel p v s).pending = s.pending := by
  unfold doPsel; (try dsimp only); (repeat' split) <;> simp

@[simp] theorem doPfree_map (p : PortId) (v : Nat) (s : State) : (doPfree p v s).map = s.map := by
  unfold doPfree; (try dsimp only); (repeat' split) <;> simp
@[simp] theorem doPfree_issuer (p : PortId) (v : Nat) (s : State) : (doPfree p v s).issuer = s.issuer := by
  unfold doPfree; (try dsimp only); (repeat' split) <;> simp
@[simp] theorem doPfree_links (p : PortId) (v : Nat) (s : State) : (doPfree p v s).links = s.links := by
  unfold doPfree; (try dsimp only); (repeat' split) <;> simp
@[simp] theorem doPfree_channels (p : PortId) (v : Nat) (s : State) : (doPfree p v s).channels = s.channels := by
  unfold doPfree; (try dsimp only); (repeat' split) <;> simp
@[simp] theorem doPfree_bond (p : PortId) (v : Nat) (s : State) : (doPfree p v s).bond = s.bond := by
  unfold doPfree; (try dsimp only); (repeat' split) <;> simp
@[simp] theorem doPfree_tracker (p : PortId) (v : Nat) (s : State) : (doPfree p v s).tracker = s.tracker := by
  unfold doPfree; (try dsimp only); (repeat' split) <;> simp
@[simp] theorem doPfree_pull (p : PortId) (v : Nat) (s : State) : (doPfree p v s).pull = s.pull := by
  unfold doPfree; (try dsimp only); (repeat' split) <;> simp
@[simp] theorem doPfree_hold (p : PortId) (v : Nat) (s : State) : (doPfree p v s).hold = s.hold := by
  unfold doPfree; (try dsimp only); (repeat' split) <;> simp
@[simp] theorem doPfree_screen (p : PortId) (v : Nat) (s : State) : (doPfree p v s).screen = s.screen := by
  unfold doPfree; (try dsimp only); (repeat' split) <;> simp
@[simp] theorem doPfree_pending (p : PortId) (v : Nat) (s : State) : (doPfree p v s).pending = s.pending := by
  unfold doPfree; (try dsimp only); (repeat' split) <;> simp

@[simp] theorem doSkipu_programs (p : PortId) (u : Nat) (s : State) : (doSkipu p u s).programs = s.programs := by
  unfold doSkipu; (try dsimp only); (repeat' split) <;> simp
@[simp] theorem doSkipu_links (p : PortId) (u : Nat) (s : State) : (doSkipu p u s).links = s.links := by
  unfold doSkipu; (try dsimp only); (repeat' split) <;> simp
@[simp] theorem doSkipu_channels (p : PortId) (u : Nat) (s : State) : (doSkipu p u s).channels = s.channels := by
  unfold doSkipu; (try dsimp only); (repeat' split) <;> simp
@[simp] theorem doSkipu_bond (p : PortId) (u : Nat) (s : State) : (doSkipu p u s).bond = s.bond := by
  unfold doSkipu; (try dsimp only); (repeat' split) <;> simp
@[simp] theorem doSkipu_tracker (p : PortId) (u : Nat) (s : State) : (doSkipu p u s).tracker = s.tracker := by
  unfold doSkipu; (try dsimp only); (repeat' split) <;> simp
@[simp] theorem doSkipu_pull (p : PortId) (u : Nat) (s : State) : (doSkipu p u s).pull = s.pull := by
  unfold doSkipu; (try dsimp only); (repeat' split) <;> simp
@[simp] theorem doSkipu_hold (p : PortId) (u : Nat) (s : State) : (doSkipu p u s).hold = s.hold := by
  unfold doSkipu; (try dsimp only); (repeat' split) <;> simp
@[simp] theorem doSkipu_screen (p : PortId) (u : Nat) (s : State) : (doSkipu p u s).screen = s.screen := by
  unfold doSkipu; (try dsimp only); (repeat' split) <;> simp
@[simp] theorem doSkipu_pending (p : PortId) (u : Nat) (s : State) : (doSkipu p u s).pending = s.pending := by
  unfold doSkipu; (try dsimp only); (repeat' split) <;> simp

@[simp] theorem doMaprd_programs (p : PortId) (f n : Nat) (s : State) : (doMaprd p f n s).programs = s.programs := by
  unfold doMaprd; (try dsimp only); (repeat' split) <;> simp
@[simp] theorem doMaprd_map (p : PortId) (f n : Nat) (s : State) : (doMaprd p f n s).map = s.map := by
  unfold doMaprd; (try dsimp only); (repeat' split) <;> simp
@[simp] theorem doMaprd_issuer (p : PortId) (f n : Nat) (s : State) : (doMaprd p f n s).issuer = s.issuer := by
  unfold doMaprd; (try dsimp only); (repeat' split) <;> simp
@[simp] theorem doMaprd_links (p : PortId) (f n : Nat) (s : State) : (doMaprd p f n s).links = s.links := by
  unfold doMaprd; (try dsimp only); (repeat' split) <;> simp
@[simp] theorem doMaprd_channels (p : PortId) (f n : Nat) (s : State) : (doMaprd p f n s).channels = s.channels := by
  unfold doMaprd; (try dsimp only); (repeat' split) <;> simp
@[simp] theorem doMaprd_bond (p : PortId) (f n : Nat) (s : State) : (doMaprd p f n s).bond = s.bond := by
  unfold doMaprd; (try dsimp only); (repeat' split) <;> simp
@[simp] theorem doMaprd_tracker (p : PortId) (f n : Nat) (s : State) : (doMaprd p f n s).tracker = s.tracker := by
  unfold doMaprd; (try dsimp only); (repeat' split) <;> simp
@[simp] theorem doMaprd_pull (p : PortId) (f n : Nat) (s : State) : (doMaprd p f n s).pull = s.pull := by
  unfold doMaprd; (try dsimp only); (repeat' split) <;> simp
@[simp] theorem doMaprd_hold (p : PortId) (f n : Nat) (s : State) : (doMaprd p f n s).hold = s.hold := by
  unfold doMaprd; (try dsimp only); (repeat' split) <;> simp
@[simp] theorem doMaprd_screen (p : PortId) (f n : Nat) (s : State) : (doMaprd p f n s).screen = s.screen := by
  unfold doMaprd; (try dsimp only); (repeat' split) <;> simp
@[simp] theorem doMaprd_pending (p : PortId) (f n : Nat) (s : State) : (doMaprd p f n s).pending = s.pending := by
  unfold doMaprd; (try dsimp only); (repeat' split) <;> simp

@[simp] theorem doMaptake_programs (p : PortId) (s : State) : (doMaptake p s).programs = s.programs := by
  unfold doMaptake; (try dsimp only); (repeat' split) <;> simp
@[simp] theorem doMaptake_issuer (p : PortId) (s : State) : (doMaptake p s).issuer = s.issuer := by
  unfold doMaptake; (try dsimp only); (repeat' split) <;> simp
@[simp] theorem doMaptake_links (p : PortId) (s : State) : (doMaptake p s).links = s.links := by
  unfold doMaptake; (try dsimp only); (repeat' split) <;> simp
@[simp] theorem doMaptake_channels (p : PortId) (s : State) : (doMaptake p s).channels = s.channels := by
  unfold doMaptake; (try dsimp only); (repeat' split) <;> simp
@[simp] theorem doMaptake_bond (p : PortId) (s : State) : (doMaptake p s).bond = s.bond := by
  unfold doMaptake; (try dsimp only); (repeat' split) <;> simp
@[simp] theorem doMaptake_tracker (p : PortId) (s : State) : (doMaptake p s).tracker = s.tracker := by
  unfold doMaptake; (try dsimp only); (repeat' split) <;> simp
@[simp] theorem doMaptake_pull (p : PortId) (s : State) : (doMaptake p s).pull = s.pull := by
  unfold doMaptake; (try dsimp only); (repeat' split) <;> simp
@[simp] theorem doMaptake_hold (p : PortId) (s : State) : (doMaptake p s).hold = s.hold := by
  unfold doMaptake; (try dsimp only); (repeat' split) <;> simp
@[simp] theorem doMaptake_screen (p : PortId) (s : State) : (doMaptake p s).screen = s.screen := by
  unfold doMaptake; (try dsimp only); (repeat' split) <;> simp
@[simp] theorem doMaptake_pending (p : PortId) (s : State) : (doMaptake p s).pending = s.pending := by
  unfold doMaptake; (try dsimp only); (repeat' split) <;> simp

@[simp] theorem doGuard_programs (p : PortId) (g : Nat) (s : State) : (doGuard p g s).programs = s.programs := by
  unfold doGuard; (try dsimp only); (repeat' split) <;> simp
@[simp] theorem doGuard_map (p : PortId) (g : Nat) (s : State) : (doGuard p g s).map = s.map := by
  unfold doGuard; (try dsimp only); (repeat' split) <;> simp
@[simp] theorem doGuard_links (p : PortId) (g : Nat) (s : State) : (doGuard p g s).links = s.links := by
  unfold doGuard; (try dsimp only); (repeat' split) <;> simp
@[simp] theorem doGuard_channels (p : PortId) (g : Nat) (s : State) : (doGuard p g s).channels = s.channels := by
  unfold doGuard; (try dsimp only); (repeat' split) <;> simp
@[simp] theorem doGuard_bond (p : PortId) (g : Nat) (s : State) : (doGuard p g s).bond = s.bond := by
  unfold doGuard; (try dsimp only); (repeat' split) <;> simp
@[simp] theorem doGuard_tracker (p : PortId) (g : Nat) (s : State) : (doGuard p g s).tracker = s.tracker := by
  unfold doGuard; (try dsimp only); (repeat' split) <;> simp
@[simp] theorem doGuard_pull (p : PortId) (g : Nat) (s : State) : (doGuard p g s).pull = s.pull := by
  unfold doGuard; (try dsimp only); (repeat' split) <;> simp
@[simp] theorem doGuard_hold (p : PortId) (g : Nat) (s : State) : (doGuard p g s).hold = s.hold := by
  unfold doGuard; (try dsimp only); (repeat' split) <;> simp
@[simp] theorem doGuard_screen (p : PortId) (g : Nat) (s : State) : (doGuard p g s).screen = s.screen := by
  unfold doGuard; (try dsimp only); (repeat' split) <;> simp
@[simp] theorem doGuard_pending (p : PortId) (g : Nat) (s : State) : (doGuard p g s).pending = s.pending := by
  unfold doGuard; (try dsimp only); (repeat' split) <;> simp

@[simp] theorem doChcfg_programs (p : PortId) (a b c d : Nat) (o : Int) (e f g h : Nat) (s : State) : (doChcfg p a b c d o e f g h s).programs = s.programs := by
  unfold doChcfg; (try dsimp only); (repeat' split) <;> simp
@[simp] theorem doChcfg_map (p : PortId) (a b c d : Nat) (o : Int) (e f g h : Nat) (s : State) : (doChcfg p a b c d o e f g h s).map = s.map := by
  unfold doChcfg; (try dsimp only); (repeat' split) <;> simp
@[simp] theorem doChcfg_issuer (p : PortId) (a b c d : Nat) (o : Int) (e f g h : Nat) (s : State) : (doChcfg p a b c d o e f g h s).issuer = s.issuer := by
  unfold doChcfg; (try dsimp only); (repeat' split) <;> simp
@[simp] theorem doChcfg_bond (p : PortId) (a b c d : Nat) (o : Int) (e f g h : Nat) (s : State) : (doChcfg p a b c d o e f g h s).bond = s.bond := by
  unfold doChcfg; (try dsimp only); (repeat' split) <;> simp
@[simp] theorem doChcfg_tracker (p : PortId) (a b c d : Nat) (o : Int) (e f g h : Nat) (s : State) : (doChcfg p a b c d o e f g h s).tracker = s.tracker := by
  unfold doChcfg; (try dsimp only); (repeat' split) <;> simp
@[simp] theorem doChcfg_pull (p : PortId) (a b c d : Nat) (o : Int) (e f g h : Nat) (s : State) : (doChcfg p a b c d o e f g h s).pull = s.pull := by
  unfold doChcfg; (try dsimp only); (repeat' split) <;> simp
@[simp] theorem doChcfg_hold (p : PortId) (a b c d : Nat) (o : Int) (e f g h : Nat) (s : State) : (doChcfg p a b c d o e f g h s).hold = s.hold := by
  unfold doChcfg; (try dsimp only); (repeat' split) <;> simp
@[simp] theorem doChcfg_screen (p : PortId) (a b c d : Nat) (o : Int) (e f g h : Nat) (s : State) : (doChcfg p a b c d o e f g h s).screen = s.screen := by
  unfold doChcfg; (try dsimp only); (repeat' split) <;> simp
@[simp] theorem doChcfg_pending (p : PortId) (a b c d : Nat) (o : Int) (e f g h : Nat) (s : State) : (doChcfg p a b c d o e f g h s).pending = s.pending := by
  unfold doChcfg; (try dsimp only); (repeat' split) <;> simp

@[simp] theorem doSplan_programs (p : PortId) (a b c : Nat) (l : List Byte) (s : State) : (doSplan p a b c l s).programs = s.programs := by
  unfold doSplan; (try dsimp only); (repeat' split) <;> simp
@[simp] theorem doSplan_map (p : PortId) (a b c : Nat) (l : List Byte) (s : State) : (doSplan p a b c l s).map = s.map := by
  unfold doSplan; (try dsimp only); (repeat' split) <;> simp
@[simp] theorem doSplan_issuer (p : PortId) (a b c : Nat) (l : List Byte) (s : State) : (doSplan p a b c l s).issuer = s.issuer := by
  unfold doSplan; (try dsimp only); (repeat' split) <;> simp
@[simp] theorem doSplan_links (p : PortId) (a b c : Nat) (l : List Byte) (s : State) : (doSplan p a b c l s).links = s.links := by
  unfold doSplan; (try dsimp only); (repeat' split) <;> simp
@[simp] theorem doSplan_channels (p : PortId) (a b c : Nat) (l : List Byte) (s : State) : (doSplan p a b c l s).channels = s.channels := by
  unfold doSplan; (try dsimp only); (repeat' split) <;> simp
@[simp] theorem doSplan_bond (p : PortId) (a b c : Nat) (l : List Byte) (s : State) : (doSplan p a b c l s).bond = s.bond := by
  unfold doSplan; (try dsimp only); (repeat' split) <;> simp
@[simp] theorem doSplan_tracker (p : PortId) (a b c : Nat) (l : List Byte) (s : State) : (doSplan p a b c l s).tracker = s.tracker := by
  unfold doSplan; (try dsimp only); (repeat' split) <;> simp
@[simp] theorem doSplan_hold (p : PortId) (a b c : Nat) (l : List Byte) (s : State) : (doSplan p a b c l s).hold = s.hold := by
  unfold doSplan; (try dsimp only); (repeat' split) <;> simp
@[simp] theorem doSplan_screen (p : PortId) (a b c : Nat) (l : List Byte) (s : State) : (doSplan p a b c l s).screen = s.screen := by
  unfold doSplan; (try dsimp only); (repeat' split) <;> simp
@[simp] theorem doSplan_pending (p : PortId) (a b c : Nat) (l : List Byte) (s : State) : (doSplan p a b c l s).pending = s.pending := by
  unfold doSplan; (try dsimp only); (repeat' split) <;> simp

@[simp] theorem doPtake_programs (p : PortId) (k : Nat) (s : State) : (doPtake p k s).programs = s.programs := by
  unfold doPtake; (try dsimp only); (repeat' split) <;> simp
@[simp] theorem doPtake_map (p : PortId) (k : Nat) (s : State) : (doPtake p k s).map = s.map := by
  unfold doPtake; (try dsimp only); (repeat' split) <;> simp
@[simp] theorem doPtake_issuer (p : PortId) (k : Nat) (s : State) : (doPtake p k s).issuer = s.issuer := by
  unfold doPtake; (try dsimp only); (repeat' split) <;> simp
@[simp] theorem doPtake_links (p : PortId) (k : Nat) (s : State) : (doPtake p k s).links = s.links := by
  unfold doPtake; (try dsimp only); (repeat' split) <;> simp
@[simp] theorem doPtake_channels (p : PortId) (k : Nat) (s : State) : (doPtake p k s).channels = s.channels := by
  unfold doPtake; (try dsimp only); (repeat' split) <;> simp
@[simp] theorem doPtake_bond (p : PortId) (k : Nat) (s : State) : (doPtake p k s).bond = s.bond := by
  unfold doPtake; (try dsimp only); (repeat' split) <;> simp
@[simp] theorem doPtake_tracker (p : PortId) (k : Nat) (s : State) : (doPtake p k s).tracker = s.tracker := by
  unfold doPtake; (try dsimp only); (repeat' split) <;> simp
@[simp] theorem doPtake_hold (p : PortId) (k : Nat) (s : State) : (doPtake p k s).hold = s.hold := by
  unfold doPtake; (try dsimp only); (repeat' split) <;> simp
@[simp] theorem doPtake_screen (p : PortId) (k : Nat) (s : State) : (doPtake p k s).screen = s.screen := by
  unfold doPtake; (try dsimp only); (repeat' split) <;> simp
@[simp] theorem doPtake_pending (p : PortId) (k : Nat) (s : State) : (doPtake p k s).pending = s.pending := by
  unfold doPtake; (try dsimp only); (repeat' split) <;> simp

@[simp] theorem doHold_programs (p : PortId) (s : State) : (doHold p s).programs = s.programs := by
  unfold doHold; (try dsimp only); (repeat' split) <;> simp
@[simp] theorem doHold_map (p : PortId) (s : State) : (doHold p s).map = s.map := by
  unfold doHold; (try dsimp only); (repeat' split) <;> simp
@[simp] theorem doHold_issuer (p : PortId) (s : State) : (doHold p s).issuer = s.issuer := by
  unfold doHold; (try dsimp only); (repeat' split) <;> simp
@[simp] theorem doHold_links (p : PortId) (s : State) : (doHold p s).links = s.links := by
  unfold doHold; (try dsimp only); (repeat' split) <;> simp
@[simp] theorem doHold_channels (p : PortId) (s : State) : (doHold p s).channels = s.channels := by
  unfold doHold; (try dsimp only); (repeat' split) <;> simp
@[simp] theorem doHold_bond (p : PortId) (s : State) : (doHold p s).bond = s.bond := by
  unfold doHold; (try dsimp only); (repeat' split) <;> simp
@[simp] theorem doHold_tracker (p : PortId) (s : State) : (doHold p s).tracker = s.tracker := by
  unfold doHold; (try dsimp only); (repeat' split) <;> simp
@[simp] theorem doHold_pull (p : PortId) (s : State) : (doHold p s).pull = s.pull := by
  unfold doHold; (try dsimp only); (repeat' split) <;> simp
@[simp] theorem doHold_screen (p : PortId) (s : State) : (doHold p s).screen = s.screen := by
  unfold doHold; (try dsimp only); (repeat' split) <;> simp
@[simp] theorem doHold_pending (p : PortId) (s : State) : (doHold p s).pending = s.pending := by
  unfold doHold; (try dsimp only); (repeat' split) <;> simp

@[simp] theorem doRelease_programs (p : PortId) (m : Nat) (c : W16) (s : State) : (doRelease p m c s).programs = s.programs := by
  unfold doRelease; (try dsimp only); (repeat' split) <;> simp
@[simp] theorem doRelease_map (p : PortId) (m : Nat) (c : W16) (s : State) : (doRelease p m c s).map = s.map := by
  unfold doRelease; (try dsimp only); (repeat' split) <;> simp
@[simp] theorem doRelease_issuer (p : PortId) (m : Nat) (c : W16) (s : State) : (doRelease p m c s).issuer = s.issuer := by
  unfold doRelease; (try dsimp only); (repeat' split) <;> simp
@[simp] theorem doRelease_links (p : PortId) (m : Nat) (c : W16) (s : State) : (doRelease p m c s).links = s.links := by
  unfold doRelease; (try dsimp only); (repeat' split) <;> simp
@[simp] theorem doRelease_channels (p : PortId) (m : Nat) (c : W16) (s : State) : (doRelease p m c s).channels = s.channels := by
  unfold doRelease; (try dsimp only); (repeat' split) <;> simp
@[simp] theorem doRelease_bond (p : PortId) (m : Nat) (c : W16) (s : State) : (doRelease p m c s).bond = s.bond := by
  unfold doRelease; (try dsimp only); (repeat' split) <;> simp
@[simp] theorem doRelease_tracker (p : PortId) (m : Nat) (c : W16) (s : State) : (doRelease p m c s).tracker = s.tracker := by
  unfold doRelease; (try dsimp only); (repeat' split) <;> simp
@[simp] theorem doRelease_pull (p : PortId) (m : Nat) (c : W16) (s : State) : (doRelease p m c s).pull = s.pull := by
  unfold doRelease; (try dsimp only); (repeat' split) <;> simp
@[simp] theorem doRelease_screen (p : PortId) (m : Nat) (c : W16) (s : State) : (doRelease p m c s).screen = s.screen := by
  unfold doRelease; (try dsimp only); (repeat' split) <;> simp
@[simp] theorem doRelease_pending (p : PortId) (m : Nat) (c : W16) (s : State) : (doRelease p m c s).pending = s.pending := by
  unfold doRelease; (try dsimp only); (repeat' split) <;> simp

@[simp] theorem doSetcode_programs (p : PortId) (a b : W16) (s : State) : (doSetcode p a b s).programs = s.programs := by
  unfold doSetcode; (try dsimp only); (repeat' split) <;> simp
@[simp] theorem doSetcode_map (p : PortId) (a b : W16) (s : State) : (doSetcode p a b s).map = s.map := by
  unfold doSetcode; (try dsimp only); (repeat' split) <;> simp
@[simp] theorem doSetcode_issuer (p : PortId) (a b : W16) (s : State) : (doSetcode p a b s).issuer = s.issuer := by
  unfold doSetcode; (try dsimp only); (repeat' split) <;> simp
@[simp] theorem doSetcode_links (p : PortId) (a b : W16) (s : State) : (doSetcode p a b s).links = s.links := by
  unfold doSetcode; (try dsimp only); (repeat' split) <;> simp
@[simp] theorem doSetcode_channels (p : PortId) (a b : W16) (s : State) : (doSetcode p a b s).channels = s.channels := by
  unfold doSetcode; (try dsimp only); (repeat' split) <;> simp
@[simp] theorem doSetcode_bond (p : PortId) (a b : W16) (s : State) : (doSetcode p a b s).bond = s.bond := by
  unfold doSetcode; (try dsimp only); (repeat' split) <;> simp
@[simp] theorem doSetcode_tracker (p : PortId) (a b : W16) (s : State) : (doSetcode p a b s).tracker = s.tracker := by
  unfold doSetcode; (try dsimp only); (repeat' split) <;> simp
@[simp] theorem doSetcode_pull (p : PortId) (a b : W16) (s : State) : (doSetcode p a b s).pull = s.pull := by
  unfold doSetcode; (try dsimp only); (repeat' split) <;> simp
@[simp] theorem doSetcode_screen (p : PortId) (a b : W16) (s : State) : (doSetcode p a b s).screen = s.screen := by
  unfold doSetcode; (try dsimp only); (repeat' split) <;> simp
@[simp] theorem doSetcode_pending (p : PortId) (a b : W16) (s : State) : (doSetcode p a b s).pending = s.pending := by
  unfold doSetcode; (try dsimp only); (repeat' split) <;> simp

@[simp] theorem doRgdef_programs (p : PortId) (a b c d e f g : Nat) (x : Byte) (s : State) : (doRgdef p a b c d e f g x s).programs = s.programs := by
  unfold doRgdef; (try dsimp only); (repeat' split) <;> simp
@[simp] theorem doRgdef_map (p : PortId) (a b c d e f g : Nat) (x : Byte) (s : State) : (doRgdef p a b c d e f g x s).map = s.map := by
  unfold doRgdef; (try dsimp only); (repeat' split) <;> simp
@[simp] theorem doRgdef_issuer (p : PortId) (a b c d e f g : Nat) (x : Byte) (s : State) : (doRgdef p a b c d e f g x s).issuer = s.issuer := by
  unfold doRgdef; (try dsimp only); (repeat' split) <;> simp
@[simp] theorem doRgdef_links (p : PortId) (a b c d e f g : Nat) (x : Byte) (s : State) : (doRgdef p a b c d e f g x s).links = s.links := by
  unfold doRgdef; (try dsimp only); (repeat' split) <;> simp
@[simp] theorem doRgdef_channels (p : PortId) (a b c d e f g : Nat) (x : Byte) (s : State) : (doRgdef p a b c d e f g x s).channels = s.channels := by
  unfold doRgdef; (try dsimp only); (repeat' split) <;> simp
@[simp] theorem doRgdef_bond (p : PortId) (a b c d e f g : Nat) (x : Byte) (s : State) : (doRgdef p a b c d e f g x s).bond = s.bond := by
  unfold doRgdef; (try dsimp only); (repeat' split) <;> simp
@[simp] theorem doRgdef_tracker (p : PortId) (a b c d e f g : Nat) (x : Byte) (s : State) : (doRgdef p a b c d e f g x s).tracker = s.tracker := by
  unfold doRgdef; (try dsimp only); (repeat' split) <;> simp
@[simp] theorem doRgdef_pull (p : PortId) (a b c d e f g : Nat) (x : Byte) (s : State) : (doRgdef p a b c d e f g x s).pull = s.pull := by
  unfold doRgdef; (try dsimp only); (repeat' split) <;> simp
@[simp] theorem doRgdef_hold (p : PortId) (a b c d e f g : Nat) (x : Byte) (s : State) : (doRgdef p a b c d e f g x s).hold = s.hold := by
  unfold doRgdef; (try dsimp only); (repeat' split) <;> simp
@[simp] theorem doRgdef_pending (p : PortId) (a b c d e f g : Nat) (x : Byte) (s : State) : (doRgdef p a b c d e f g x s).pending = s.pending := by
  unfold doRgdef; (try dsimp only); (repeat' split) <;> simp

@[simp] theorem doRgdel_programs (p : PortId) (i : Nat) (s : State) : (doRgdel p i s).programs = s.programs := by
  unfold doRgdel; (try dsimp only); (repeat' split) <;> simp
@[simp] theorem doRgdel_map (p : PortId) (i : Nat) (s : State) : (doRgdel p i s).map = s.map := by
  unfold doRgdel; (try dsimp only); (repeat' split) <;> simp
@[simp] theorem doRgdel_issuer (p : PortId) (i : Nat) (s : State) : (doRgdel p i s).issuer = s.issuer := by
  unfold doRgdel; (try dsimp only); (repeat' split) <;> simp
@[simp] theorem doRgdel_links (p : PortId) (i : Nat) (s : State) : (doRgdel p i s).links = s.links := by
  unfold doRgdel; (try dsimp only); (repeat' split) <;> simp
@[simp] theorem doRgdel_channels (p : PortId) (i : Nat) (s : State) : (doRgdel p i s).channels = s.channels := by
  unfold doRgdel; (try dsimp only); (repeat' split) <;> simp
@[simp] theorem doRgdel_bond (p : PortId) (i : Nat) (s : State) : (doRgdel p i s).bond = s.bond := by
  unfold doRgdel; (try dsimp only); (repeat' split) <;> simp
@[simp] theorem doRgdel_tracker (p : PortId) (i : Nat) (s : State) : (doRgdel p i s).tracker = s.tracker := by
  unfold doRgdel; (try dsimp only); (repeat' split) <;> simp
@[simp] theorem doRgdel_pull (p : PortId) (i : Nat) (s : State) : (doRgdel p i s).pull = s.pull := by
  unfold doRgdel; (try dsimp only); (repeat' split) <;> simp
@[simp] theorem doRgdel_hold (p : PortId) (i : Nat) (s : State) : (doRgdel p i s).hold = s.hold := by
  unfold doRgdel; (try dsimp only); (repeat' split) <;> simp
@[simp] theorem doRgdel_pending (p : PortId) (i : Nat) (s : State) : (doRgdel p i s).pending = s.pending := by
  unfold doRgdel; (try dsimp only); (repeat' split) <;> simp

@[simp] theorem doRestart_links (p : PortId) (s : State) : (doRestart p s).links = s.links := by
  unfold doRestart; (try dsimp only); (repeat' split) <;> simp
@[simp] theorem doRestart_screen (p : PortId) (s : State) : (doRestart p s).screen = s.screen := by
  unfold doRestart; (try dsimp only); (repeat' split) <;> simp
@[simp] theorem doRestart_pending (p : PortId) (s : State) : (doRestart p s).pending = s.pending := by
  unfold doRestart; (try dsimp only); (repeat' split) <;> simp

@[simp] theorem doMgrd_programs (p : PortId) (i : Nat) (s : State) : (doMgrd p i s).programs = s.programs := by
  unfold doMgrd; (try dsimp only); (repeat' split) <;> simp
@[simp] theorem doMgrd_map (p : PortId) (i : Nat) (s : State) : (doMgrd p i s).map = s.map := by
  unfold doMgrd; (try dsimp only); (repeat' split) <;> simp
@[simp] theorem doMgrd_issuer (p : PortId) (i : Nat) (s : State) : (doMgrd p i s).issuer = s.issuer := by
  unfold doMgrd; (try dsimp only); (repeat' split) <;> simp
@[simp] theorem doMgrd_links (p : PortId) (i : Nat) (s : State) : (doMgrd p i s).links = s.links := by
  unfold doMgrd; (try dsimp only); (repeat' split) <;> simp
@[simp] theorem doMgrd_channels (p : PortId) (i : Nat) (s : State) : (doMgrd p i s).channels = s.channels := by
  unfold doMgrd; (try dsimp only); (repeat' split) <;> simp
@[simp] theorem doMgrd_bond (p : PortId) (i : Nat) (s : State) : (doMgrd p i s).bond = s.bond := by
  unfold doMgrd; (try dsimp only); (repeat' split) <;> simp
@[simp] theorem doMgrd_tracker (p : PortId) (i : Nat) (s : State) : (doMgrd p i s).tracker = s.tracker := by
  unfold doMgrd; (try dsimp only); (repeat' split) <;> simp
@[simp] theorem doMgrd_pull (p : PortId) (i : Nat) (s : State) : (doMgrd p i s).pull = s.pull := by
  unfold doMgrd; (try dsimp only); (repeat' split) <;> simp
@[simp] theorem doMgrd_hold (p : PortId) (i : Nat) (s : State) : (doMgrd p i s).hold = s.hold := by
  unfold doMgrd; (try dsimp only); (repeat' split) <;> simp
@[simp] theorem doMgrd_screen (p : PortId) (i : Nat) (s : State) : (doMgrd p i s).screen = s.screen := by
  unfold doMgrd; (try dsimp only); (repeat' split) <;> simp
@[simp] theorem doMgrd_pending (p : PortId) (i : Nat) (s : State) : (doMgrd p i s).pending = s.pending := by
  unfold doMgrd; (try dsimp only); (repeat' split) <;> simp

@[simp] theorem doMagld_programs (p : PortId) (i : Nat) (w : W16) (n : Nat) (l : List Byte) (s : State) : (doMagld p i w n l s).programs = s.programs := by
  unfold doMagld; (try dsimp only); (repeat' split) <;> simp
@[simp] theorem doMagld_map (p : PortId) (i : Nat) (w : W16) (n : Nat) (l : List Byte) (s : State) : (doMagld p i w n l s).map = s.map := by
  unfold doMagld; (try dsimp only); (repeat' split) <;> simp
@[simp] theorem doMagld_issuer (p : PortId) (i : Nat) (w : W16) (n : Nat) (l : List Byte) (s : State) : (doMagld p i w n l s).issuer = s.issuer := by
  unfold doMagld; (try dsimp only); (repeat' split) <;> simp
@[simp] theorem doMagld_links (p : PortId) (i : Nat) (w : W16) (n : Nat) (l : List Byte) (s : State) : (doMagld p i w n l s).links = s.links := by
  unfold doMagld; (try dsimp only); (repeat' split) <;> simp
@[simp] theorem doMagld_channels (p : PortId) (i : Nat) (w : W16) (n : Nat) (l : List Byte) (s : State) : (doMagld p i w n l s).channels = s.channels := by
  unfold doMagld; (try dsimp only); (repeat' split) <;> simp
@[simp] theorem doMagld_bond (p : PortId) (i : Nat) (w : W16) (n : Nat) (l : List Byte) (s : State) : (doMagld p i w n l s).bond = s.bond := by
  unfold doMagld; (try dsimp only); (repeat' split) <;> simp
@[simp] theorem doMagld_pull (p : PortId) (i : Nat) (w : W16) (n : Nat) (l : List Byte) (s : State) : (doMagld p i w n l s).pull = s.pull := by
  unfold doMagld; (try dsimp only); (repeat' split) <;> simp
@[simp] theorem doMagld_hold (p : PortId) (i : Nat) (w : W16) (n : Nat) (l : List Byte) (s : State) : (doMagld p i w n l s).hold = s.hold := by
  unfold doMagld; (try dsimp only); (repeat' split) <;> simp
@[simp] theorem doMagld_screen (p : PortId) (i : Nat) (w : W16) (n : Nat) (l : List Byte) (s : State) : (doMagld p i w n l s).screen = s.screen := by
  unfold doMagld; (try dsimp only); (repeat' split) <;> simp
@[simp] theorem doMagld_pending (p : PortId) (i : Nat) (w : W16) (n : Nat) (l : List Byte) (s : State) : (doMagld p i w n l s).pending = s.pending := by
  unfold doMagld; (try dsimp only); (repeat' split) <;> simp

@[simp] theorem doMagul_programs (p : PortId) (i : Nat) (s : State) : (doMagul p i s).programs = s.programs := by
  unfold doMagul; (try dsimp only); (repeat' split) <;> simp
@[simp] theorem doMagul_map (p : PortId) (i : Nat) (s : State) : (doMagul p i s).map = s.map := by
  unfold doMagul; (try dsimp only); (repeat' split) <;> simp
@[simp] theorem doMagul_issuer (p : PortId) (i : Nat) (s : State) : (doMagul p i s).issuer = s.issuer := by
  unfold doMagul; (try dsimp only); (repeat' split) <;> simp
@[simp] theorem doMagul_links (p : PortId) (i : Nat) (s : State) : (doMagul p i s).links = s.links := by
  unfold doMagul; (try dsimp only); (repeat' split) <;> simp
@[simp] theorem doMagul_channels (p : PortId) (i : Nat) (s : State) : (doMagul p i s).channels = s.channels := by
  unfold doMagul; (try dsimp only); (repeat' split) <;> simp
@[simp] theorem doMagul_bond (p : PortId) (i : Nat) (s : State) : (doMagul p i s).bond = s.bond := by
  unfold doMagul; (try dsimp only); (repeat' split) <;> simp
@[simp] theorem doMagul_pull (p : PortId) (i : Nat) (s : State) : (doMagul p i s).pull = s.pull := by
  unfold doMagul; (try dsimp only); (repeat' split) <;> simp
@[simp] theorem doMagul_hold (p : PortId) (i : Nat) (s : State) : (doMagul p i s).hold = s.hold := by
  unfold doMagul; (try dsimp only); (repeat' split) <;> simp
@[simp] theorem doMagul_screen (p : PortId) (i : Nat) (s : State) : (doMagul p i s).screen = s.screen := by
  unfold doMagul; (try dsimp only); (repeat' split) <;> simp
@[simp] theorem doMagul_pending (p : PortId) (i : Nat) (s : State) : (doMagul p i s).pending = s.pending := by
  unfold doMagul; (try dsimp only); (repeat' split) <;> simp

@[simp] theorem doFeed_programs (p : PortId) (i : Nat) (w : W32) (s : State) : (doFeed p i w s).programs = s.programs := by
  unfold doFeed; (try dsimp only); (repeat' split) <;> simp
@[simp] theorem doFeed_map (p : PortId) (i : Nat) (w : W32) (s : State) : (doFeed p i w s).map = s.map := by
  unfold doFeed; (try dsimp only); (repeat' split) <;> simp
@[simp] theorem doFeed_issuer (p : PortId) (i : Nat) (w : W32) (s : State) : (doFeed p i w s).issuer = s.issuer := by
  unfold doFeed; (try dsimp only); (repeat' split) <;> simp
@[simp] theorem doFeed_links (p : PortId) (i : Nat) (w : W32) (s : State) : (doFeed p i w s).links = s.links := by
  unfold doFeed; (try dsimp only); (repeat' split) <;> simp
@[simp] theorem doFeed_channels (p : PortId) (i : Nat) (w : W32) (s : State) : (doFeed p i w s).channels = s.channels := by
  unfold doFeed; (try dsimp only); (repeat' split) <;> simp
@[simp] theorem doFeed_bond (p : PortId) (i : Nat) (w : W32) (s : State) : (doFeed p i w s).bond = s.bond := by
  unfold doFeed; (try dsimp only); (repeat' split) <;> simp
@[simp] theorem doFeed_pull (p : PortId) (i : Nat) (w : W32) (s : State) : (doFeed p i w s).pull = s.pull := by
  unfold doFeed; (try dsimp only); (repeat' split) <;> simp
@[simp] theorem doFeed_hold (p : PortId) (i : Nat) (w : W32) (s : State) : (doFeed p i w s).hold = s.hold := by
  unfold doFeed; (try dsimp only); (repeat' split) <;> simp
@[simp] theorem doFeed_screen (p : PortId) (i : Nat) (w : W32) (s : State) : (doFeed p i w s).screen = s.screen := by
  unfold doFeed; (try dsimp only); (repeat' split) <;> simp
@[simp] theorem doFeed_pending (p : PortId) (i : Nat) (w : W32) (s : State) : (doFeed p i w s).pending = s.pending := by
  unfold doFeed; (try dsimp only); (repeat' split) <;> simp

@[simp] theorem doZone_links (p : PortId) (v : Vector Byte 8) (s : State) : (doZone p v s).links = s.links := by
  unfold doZone; (try dsimp only); (repeat' split) <;> simp
@[simp] theorem doZone_channels (p : PortId) (v : Vector Byte 8) (s : State) : (doZone p v s).channels = s.channels := by
  unfold doZone; (try dsimp only); (repeat' split) <;> simp
@[simp] theorem doZone_bond (p : PortId) (v : Vector Byte 8) (s : State) : (doZone p v s).bond = s.bond := by
  unfold doZone; (try dsimp only); (repeat' split) <;> simp
@[simp] theorem doZone_hold (p : PortId) (v : Vector Byte 8) (s : State) : (doZone p v s).hold = s.hold := by
  unfold doZone; (try dsimp only); (repeat' split) <;> simp
@[simp] theorem doZone_screen (p : PortId) (v : Vector Byte 8) (s : State) : (doZone p v s).screen = s.screen := by
  unfold doZone; (try dsimp only); (repeat' split) <;> simp
@[simp] theorem doZone_pending (p : PortId) (v : Vector Byte 8) (s : State) : (doZone p v s).pending = s.pending := by
  unfold doZone; (try dsimp only); (repeat' split) <;> simp

@[simp] theorem doZrel_links (p : PortId) (s : State) : (doZrel p s).links = s.links := by
  unfold doZrel; (try dsimp only); (repeat' split) <;> simp
@[simp] theorem doZrel_channels (p : PortId) (s : State) : (doZrel p s).channels = s.channels := by
  unfold doZrel; (try dsimp only); (repeat' split) <;> simp
@[simp] theorem doZrel_bond (p : PortId) (s : State) : (doZrel p s).bond = s.bond := by
  unfold doZrel; (try dsimp only); (repeat' split) <;> simp
@[simp] theorem doZrel_hold (p : PortId) (s : State) : (doZrel p s).hold = s.hold := by
  unfold doZrel; (try dsimp only); (repeat' split) <;> simp
@[simp] theorem doZrel_screen (p : PortId) (s : State) : (doZrel p s).screen = s.screen := by
  unfold doZrel; (try dsimp only); (repeat' split) <;> simp
@[simp] theorem doZrel_pending (p : PortId) (s : State) : (doZrel p s).pending = s.pending := by
  unfold doZrel; (try dsimp only); (repeat' split) <;> simp

@[simp] theorem doStow_programs (p : PortId) (i : Nat) (s : State) : (doStow p i s).programs = s.programs := by
  unfold doStow; (try dsimp only); (repeat' split) <;> simp
@[simp] theorem doStow_map (p : PortId) (i : Nat) (s : State) : (doStow p i s).map = s.map := by
  unfold doStow; (try dsimp only); (repeat' split) <;> simp
@[simp] theorem doStow_issuer (p : PortId) (i : Nat) (s : State) : (doStow p i s).issuer = s.issuer := by
  unfold doStow; (try dsimp only); (repeat' split) <;> simp
@[simp] theorem doStow_links (p : PortId) (i : Nat) (s : State) : (doStow p i s).links = s.links := by
  unfold doStow; (try dsimp only); (repeat' split) <;> simp
@[simp] theorem doStow_channels (p : PortId) (i : Nat) (s : State) : (doStow p i s).channels = s.channels := by
  unfold doStow; (try dsimp only); (repeat' split) <;> simp
@[simp] theorem doStow_bond (p : PortId) (i : Nat) (s : State) : (doStow p i s).bond = s.bond := by
  unfold doStow; (try dsimp only); (repeat' split) <;> simp
@[simp] theorem doStow_pull (p : PortId) (i : Nat) (s : State) : (doStow p i s).pull = s.pull := by
  unfold doStow; (try dsimp only); (repeat' split) <;> simp
@[simp] theorem doStow_hold (p : PortId) (i : Nat) (s : State) : (doStow p i s).hold = s.hold := by
  unfold doStow; (try dsimp only); (repeat' split) <;> simp
@[simp] theorem doStow_screen (p : PortId) (i : Nat) (s : State) : (doStow p i s).screen = s.screen := by
  unfold doStow; (try dsimp only); (repeat' split) <;> simp
@[simp] theorem doStow_pending (p : PortId) (i : Nat) (s : State) : (doStow p i s).pending = s.pending := by
  unfold doStow; (try dsimp only); (repeat' split) <;> simp

@[simp] theorem doClamp_programs (p : PortId) (s : State) : (doClamp p s).programs = s.programs := by
  unfold doClamp; (try dsimp only); (repeat' split) <;> simp
@[simp] theorem doClamp_map (p : PortId) (s : State) : (doClamp p s).map = s.map := by
  unfold doClamp; (try dsimp only); (repeat' split) <;> simp
@[simp] theorem doClamp_issuer (p : PortId) (s : State) : (doClamp p s).issuer = s.issuer := by
  unfold doClamp; (try dsimp only); (repeat' split) <;> simp
@[simp] theorem doClamp_links (p : PortId) (s : State) : (doClamp p s).links = s.links := by
  unfold doClamp; (try dsimp only); (repeat' split) <;> simp
@[simp] theorem doClamp_channels (p : PortId) (s : State) : (doClamp p s).channels = s.channels := by
  unfold doClamp; (try dsimp only); (repeat' split) <;> simp
@[simp] theorem doClamp_bond (p : PortId) (s : State) : (doClamp p s).bond = s.bond := by
  unfold doClamp; (try dsimp only); (repeat' split) <;> simp
@[simp] theorem doClamp_pull (p : PortId) (s : State) : (doClamp p s).pull = s.pull := by
  unfold doClamp; (try dsimp only); (repeat' split) <;> simp
@[simp] theorem doClamp_hold (p : PortId) (s : State) : (doClamp p s).hold = s.hold := by
  unfold doClamp; (try dsimp only); (repeat' split) <;> simp
@[simp] theorem doClamp_screen (p : PortId) (s : State) : (doClamp p s).screen = s.screen := by
  unfold doClamp; (try dsimp only); (repeat' split) <;> simp
@[simp] theorem doClamp_pending (p : PortId) (s : State) : (doClamp p s).pending = s.pending := by
  unfold doClamp; (try dsimp only); (repeat' split) <;> simp

@[simp] theorem doCldone_programs (p : PortId) (s : State) : (doCldone p s).programs = s.programs := by
  unfold doCldone; (try dsimp only); (repeat' split) <;> simp
@[simp] theorem doCldone_map (p : PortId) (s : State) : (doCldone p s).map = s.map := by
  unfold doCldone; (try dsimp only); (repeat' split) <;> simp
@[simp] theorem doCldone_links (p : PortId) (s : State) : (doCldone p s).links = s.links := by
  unfold doCldone; (try dsimp only); (repeat' split) <;> simp
@[simp] theorem doCldone_channels (p : PortId) (s : State) : (doCldone p s).channels = s.channels := by
  unfold doCldone; (try dsimp only); (repeat' split) <;> simp
@[simp] theorem doCldone_bond (p : PortId) (s : State) : (doCldone p s).bond = s.bond := by
  unfold doCldone; (try dsimp only); (repeat' split) <;> simp
@[simp] theorem doCldone_pull (p : PortId) (s : State) : (doCldone p s).pull = s.pull := by
  unfold doCldone; (try dsimp only); (repeat' split) <;> simp
@[simp] theorem doCldone_hold (p : PortId) (s : State) : (doCldone p s).hold = s.hold := by
  unfold doCldone; (try dsimp only); (repeat' split) <;> simp
@[simp] theorem doCldone_screen (p : PortId) (s : State) : (doCldone p s).screen = s.screen := by
  unfold doCldone; (try dsimp only); (repeat' split) <;> simp
@[simp] theorem doCldone_pending (p : PortId) (s : State) : (doCldone p s).pending = s.pending := by
  unfold doCldone; (try dsimp only); (repeat' split) <;> simp

@[simp] theorem doPstart_programs (p : PortId) (i : Nat) (s : State) : (doPstart p i s).programs = s.programs := by
  unfold doPstart; (try dsimp only); (repeat' split) <;> simp
@[simp] theorem doPstart_map (p : PortId) (i : Nat) (s : State) : (doPstart p i s).map = s.map := by
  unfold doPstart; (try dsimp only); (repeat' split) <;> simp
@[simp] theorem doPstart_issuer (p : PortId) (i : Nat) (s : State) : (doPstart p i s).issuer = s.issuer := by
  unfold doPstart; (try dsimp only); (repeat' split) <;> simp
@[simp] theorem doPstart_links (p : PortId) (i : Nat) (s : State) : (doPstart p i s).links = s.links := by
  unfold doPstart; (try dsimp only); (repeat' split) <;> simp
@[simp] theorem doPstart_bond (p : PortId) (i : Nat) (s : State) : (doPstart p i s).bond = s.bond := by
  unfold doPstart; (try dsimp only); (repeat' split) <;> simp
@[simp] theorem doPstart_tracker (p : PortId) (i : Nat) (s : State) : (doPstart p i s).tracker = s.tracker := by
  unfold doPstart; (try dsimp only); (repeat' split) <;> simp
@[simp] theorem doPstart_hold (p : PortId) (i : Nat) (s : State) : (doPstart p i s).hold = s.hold := by
  unfold doPstart; (try dsimp only); (repeat' split) <;> simp
@[simp] theorem doPstart_screen (p : PortId) (i : Nat) (s : State) : (doPstart p i s).screen = s.screen := by
  unfold doPstart; (try dsimp only); (repeat' split) <;> simp
@[simp] theorem doPstart_pending (p : PortId) (i : Nat) (s : State) : (doPstart p i s).pending = s.pending := by
  unfold doPstart; (try dsimp only); (repeat' split) <;> simp

@[simp] theorem doPend_programs (p : PortId) (i m : Nat) (s : State) : (doPend p i m s).programs = s.programs := by
  unfold doPend; (try dsimp only); (repeat' split) <;> simp
@[simp] theorem doPend_map (p : PortId) (i m : Nat) (s : State) : (doPend p i m s).map = s.map := by
  unfold doPend; (try dsimp only); (repeat' split) <;> simp
@[simp] theorem doPend_issuer (p : PortId) (i m : Nat) (s : State) : (doPend p i m s).issuer = s.issuer := by
  unfold doPend; (try dsimp only); (repeat' split) <;> simp
@[simp] theorem doPend_links (p : PortId) (i m : Nat) (s : State) : (doPend p i m s).links = s.links := by
  unfold doPend; (try dsimp only); (repeat' split) <;> simp
@[simp] theorem doPend_bond (p : PortId) (i m : Nat) (s : State) : (doPend p i m s).bond = s.bond := by
  unfold doPend; (try dsimp only); (repeat' split) <;> simp
@[simp] theorem doPend_screen (p : PortId) (i m : Nat) (s : State) : (doPend p i m s).screen = s.screen := by
  unfold doPend; (try dsimp only); (repeat' split) <;> simp
@[simp] theorem doPend_pending (p : PortId) (i m : Nat) (s : State) : (doPend p i m s).pending = s.pending := by
  unfold doPend; (try dsimp only); (repeat' split) <;> simp

@[simp] theorem doPvoid_programs (p : PortId) (i : Nat) (s : State) : (doPvoid p i s).programs = s.programs := by
  unfold doPvoid; (try dsimp only); (repeat' split) <;> simp
@[simp] theorem doPvoid_map (p : PortId) (i : Nat) (s : State) : (doPvoid p i s).map = s.map := by
  unfold doPvoid; (try dsimp only); (repeat' split) <;> simp
@[simp] theorem doPvoid_issuer (p : PortId) (i : Nat) (s : State) : (doPvoid p i s).issuer = s.issuer := by
  unfold doPvoid; (try dsimp only); (repeat' split) <;> simp
@[simp] theorem doPvoid_links (p : PortId) (i : Nat) (s : State) : (doPvoid p i s).links = s.links := by
  unfold doPvoid; (try dsimp only); (repeat' split) <;> simp
@[simp] theorem doPvoid_bond (p : PortId) (i : Nat) (s : State) : (doPvoid p i s).bond = s.bond := by
  unfold doPvoid; (try dsimp only); (repeat' split) <;> simp
@[simp] theorem doPvoid_hold (p : PortId) (i : Nat) (s : State) : (doPvoid p i s).hold = s.hold := by
  unfold doPvoid; (try dsimp only); (repeat' split) <;> simp
@[simp] theorem doPvoid_screen (p : PortId) (i : Nat) (s : State) : (doPvoid p i s).screen = s.screen := by
  unfold doPvoid; (try dsimp only); (repeat' split) <;> simp
@[simp] theorem doPvoid_pending (p : PortId) (i : Nat) (s : State) : (doPvoid p i s).pending = s.pending := by
  unfold doPvoid; (try dsimp only); (repeat' split) <;> simp

@[simp] theorem serveNext_programs (h : Head) (s : State) : (serveNext h s).programs = s.programs := by
  unfold serveNext; (try dsimp only); (repeat' split) <;> simp
@[simp] theorem serveNext_links (h : Head) (s : State) : (serveNext h s).links = s.links := by
  unfold serveNext; (try dsimp only); (repeat' split) <;> simp
@[simp] theorem serveNext_channels (h : Head) (s : State) : (serveNext h s).channels = s.channels := by
  unfold serveNext; (try dsimp only); (repeat' split) <;> simp
@[simp] theorem serveNext_bond (h : Head) (s : State) : (serveNext h s).bond = s.bond := by
  unfold serveNext; (try dsimp only); (repeat' split) <;> simp
@[simp] theorem serveNext_tracker (h : Head) (s : State) : (serveNext h s).tracker = s.tracker := by
  unfold serveNext; (try dsimp only); (repeat' split) <;> simp
@[simp] theorem serveNext_pull (h : Head) (s : State) : (serveNext h s).pull = s.pull := by
  unfold serveNext; (try dsimp only); (repeat' split) <;> simp
@[simp] theorem serveNext_hold (h : Head) (s : State) : (serveNext h s).hold = s.hold := by
  unfold serveNext; (try dsimp only); (repeat' split) <;> simp
@[simp] theorem serveNext_screen (h : Head) (s : State) : (serveNext h s).screen = s.screen := by
  unfold serveNext; (try dsimp only); (repeat' split) <;> simp
@[simp] theorem serveNext_pending (h : Head) (s : State) : (serveNext h s).pending = s.pending := by
  unfold serveNext; (try dsimp only); (repeat' split) <;> simp

@[simp] theorem serveClaim_programs (h : Head) (u w : Nat) (s : State) : (serveClaim h u w s).programs = s.programs := by
  unfold serveClaim; (try dsimp only); (repeat' split) <;> simp
@[simp] theorem serveClaim_links (h : Head) (u w : Nat) (s : State) : (serveClaim h u w s).links = s.links := by
  unfold serveClaim; (try dsimp only); (repeat' split) <;> simp
@[simp] theorem serveClaim_channels (h : Head) (u w : Nat) (s : State) : (serveClaim h u w s).channels = s.channels := by
  unfold serveClaim; (try dsimp only); (repeat' split) <;> simp
@[simp] theorem serveClaim_bond (h : Head) (u w : Nat) (s : State) : (serveClaim h u w s).bond = s.bond := by
  unfold serveClaim; (try dsimp only); (repeat' split) <;> simp
@[simp] theorem serveClaim_tracker (h : Head) (u w : Nat) (s : State) : (serveClaim h u w s).tracker = s.tracker := by
  unfold serveClaim; (try dsimp only); (repeat' split) <;> simp
@[simp] theorem serveClaim_pull (h : Head) (u w : Nat) (s : State) : (serveClaim h u w s).pull = s.pull := by
  unfold serveClaim; (try dsimp only); (repeat' split) <;> simp
@[simp] theorem serveClaim_hold (h : Head) (u w : Nat) (s : State) : (serveClaim h u w s).hold = s.hold := by
  unfold serveClaim; (try dsimp only); (repeat' split) <;> simp
@[simp] theorem serveClaim_screen (h : Head) (u w : Nat) (s : State) : (serveClaim h u w s).screen = s.screen := by
  unfold serveClaim; (try dsimp only); (repeat' split) <;> simp
@[simp] theorem serveClaim_pending (h : Head) (u w : Nat) (s : State) : (serveClaim h u w s).pending = s.pending := by
  unfold serveClaim; (try dsimp only); (repeat' split) <;> simp

@[simp] theorem serveFill_programs (h : Head) (s : State) : (serveFill h s).programs = s.programs := by
  unfold serveFill; (try dsimp only); (repeat' split) <;> simp
@[simp] theorem serveFill_links (h : Head) (s : State) : (serveFill h s).links = s.links := by
  unfold serveFill; (try dsimp only); (repeat' split) <;> simp
@[simp] theorem serveFill_channels (h : Head) (s : State) : (serveFill h s).channels = s.channels := by
  unfold serveFill; (try dsimp only); (repeat' split) <;> simp
@[simp] theorem serveFill_bond (h : Head) (s : State) : (serveFill h s).bond = s.bond := by
  unfold serveFill; (try dsimp only); (repeat' split) <;> simp
@[simp] theorem serveFill_tracker (h : Head) (s : State) : (serveFill h s).tracker = s.tracker := by
  unfold serveFill; (try dsimp only); (repeat' split) <;> simp
@[simp] theorem serveFill_pull (h : Head) (s : State) : (serveFill h s).pull = s.pull := by
  unfold serveFill; (try dsimp only); (repeat' split) <;> simp
@[simp] theorem serveFill_hold (h : Head) (s : State) : (serveFill h s).hold = s.hold := by
  unfold serveFill; (try dsimp only); (repeat' split) <;> simp
@[simp] theorem serveFill_screen (h : Head) (s : State) : (serveFill h s).screen = s.screen := by
  unfold serveFill; (try dsimp only); (repeat' split) <;> simp
@[simp] theorem serveFill_pending (h : Head) (s : State) : (serveFill h s).pending = s.pending := by
  unfold serveFill; (try dsimp only); (repeat' split) <;> simp

@[simp] theorem doArbiterServe_programs (s : State) : (doArbiterServe s).programs = s.programs := by
  unfold doArbiterServe; (try dsimp only); (repeat' split) <;> simp
@[simp] theorem doArbiterServe_links (s : State) : (doArbiterServe s).links = s.links := by
  unfold doArbiterServe; (try dsimp only); (repeat' split) <;> simp
@[simp] theorem doArbiterServe_channels (s : State) : (doArbiterServe s).channels = s.channels := by
  unfold doArbiterServe; (try dsimp only); (repeat' split) <;> simp
@[simp] theorem doArbiterServe_bond (s : State) : (doArbiterServe s).bond = s.bond := by
  unfold doArbiterServe; (try dsimp only); (repeat' split) <;> simp
@[simp] theorem doArbiterServe_tracker (s : State) : (doArbiterServe s).tracker = s.tracker := by
  unfold doArbiterServe; (try dsimp only); (repeat' split) <;> simp
@[simp] theorem doArbiterServe_pull (s : State) : (doArbiterServe s).pull = s.pull := by
  unfold doArbiterServe; (try dsimp only); (repeat' split) <;> simp
@[simp] theorem doArbiterServe_hold (s : State) : (doArbiterServe s).hold = s.hold := by
  unfold doArbiterServe; (try dsimp only); (repeat' split) <;> simp
@[simp] theorem doArbiterServe_screen (s : State) : (doArbiterServe s).screen = s.screen := by
  unfold doArbiterServe; (try dsimp only); (repeat' split) <;> simp
@[simp] theorem doArbiterServe_pending (s : State) : (doArbiterServe s).pending = s.pending := by
  unfold doArbiterServe; (try dsimp only); (repeat' split) <;> simp

@[simp] theorem doFillServe_programs (s : State) : (doFillServe s).programs = s.programs := by
  unfold doFillServe; (try dsimp only); (repeat' split) <;> simp
@[simp] theorem doFillServe_links (s : State) : (doFillServe s).links = s.links := by
  unfold doFillServe; (try dsimp only); (repeat' split) <;> simp
@[simp] theorem doFillServe_channels (s : State) : (doFillServe s).channels = s.channels := by
  unfold doFillServe; (try dsimp only); (repeat' split) <;> simp
@[simp] theorem doFillServe_bond (s : State) : (doFillServe s).bond = s.bond := by
  unfold doFillServe; (try dsimp only); (repeat' split) <;> simp
@[simp] theorem doFillServe_tracker (s : State) : (doFillServe s).tracker = s.tracker := by
  unfold doFillServe; (try dsimp only); (repeat' split) <;> simp
@[simp] theorem doFillServe_pull (s : State) : (doFillServe s).pull = s.pull := by
  unfold doFillServe; (try dsimp only); (repeat' split) <;> simp
@[simp] theorem doFillServe_hold (s : State) : (doFillServe s).hold = s.hold := by
  unfold doFillServe; (try dsimp only); (repeat' split) <;> simp
@[simp] theorem doFillServe_screen (s : State) : (doFillServe s).screen = s.screen := by
  unfold doFillServe; (try dsimp only); (repeat' split) <;> simp
@[simp] theorem doFillServe_pending (s : State) : (doFillServe s).pending = s.pending := by
  unfold doFillServe; (try dsimp only); (repeat' split) <;> simp

@[simp] theorem doDataWord_programs (l : Link) (w : W32) (s : State) : (doDataWord l w s).programs = s.programs := by
  have h0 := foldl_same (·.programs) (fun (s : State) (t : (ChanId × Int)) => s.sample t.1 t.2) (by simp)
  unfold doDataWord; dsimp only at h0 ⊢; simp [h0]
@[simp] theorem doDataWord_map (l : Link) (w : W32) (s : State) : (doDataWord l w s).map = s.map := by
  have h0 := foldl_same (·.map) (fun (s : State) (t : (ChanId × Int)) => s.sample t.1 t.2) (by simp)
  unfold doDataWord; dsimp only at h0 ⊢; simp [h0]
@[simp] theorem doDataWord_tracker (l : Link) (w : W32) (s : State) : (doDataWord l w s).tracker = s.tracker := by
  have h0 := foldl_same (·.tracker) (fun (s : State) (t : (ChanId × Int)) => s.sample t.1 t.2) (by simp)
  unfold doDataWord; dsimp only at h0 ⊢; simp [h0]
@[simp] theorem doDataWord_hold (l : Link) (w : W32) (s : State) : (doDataWord l w s).hold = s.hold := by
  have h0 := foldl_same (·.hold) (fun (s : State) (t : (ChanId × Int)) => s.sample t.1 t.2) (by simp)
  unfold doDataWord; dsimp only at h0 ⊢; simp [h0]
@[simp] theorem doDataWord_screen (l : Link) (w : W32) (s : State) : (doDataWord l w s).screen = s.screen := by
  have h0 := foldl_same (·.screen) (fun (s : State) (t : (ChanId × Int)) => s.sample t.1 t.2) (by simp)
  unfold doDataWord; dsimp only at h0 ⊢; simp [h0]
@[simp] theorem doDataWord_pending (l : Link) (w : W32) (s : State) : (doDataWord l w s).pending = s.pending := by
  have h0 := foldl_same (·.pending) (fun (s : State) (t : (ChanId × Int)) => s.sample t.1 t.2) (by simp)
  unfold doDataWord; dsimp only at h0 ⊢; simp [h0]

@[simp] theorem doFramingError_ports (l : Link) (s : State) : (doFramingError l s).ports = s.ports := by
  unfold doFramingError; (try dsimp only); (repeat' split) <;> simp
@[simp] theorem doFramingError_programs (l : Link) (s : State) : (doFramingError l s).programs = s.programs := by
  unfold doFramingError; (try dsimp only); (repeat' split) <;> simp
@[simp] theorem doFramingError_map (l : Link) (s : State) : (doFramingError l s).map = s.map := by
  unfold doFramingError; (try dsimp only); (repeat' split) <;> simp
@[simp] theorem doFramingError_issuer (l : Link) (s : State) : (doFramingError l s).issuer = s.issuer := by
  unfold doFramingError; (try dsimp only); (repeat' split) <;> simp
@[simp] theorem doFramingError_channels (l : Link) (s : State) : (doFramingError l s).channels = s.channels := by
  unfold doFramingError; (try dsimp only); (repeat' split) <;> simp
@[simp] theorem doFramingError_tracker (l : Link) (s : State) : (doFramingError l s).tracker = s.tracker := by
  unfold doFramingError; (try dsimp only); (repeat' split) <;> simp
@[simp] theorem doFramingError_hold (l : Link) (s : State) : (doFramingError l s).hold = s.hold := by
  unfold doFramingError; (try dsimp only); (repeat' split) <;> simp
@[simp] theorem doFramingError_screen (l : Link) (s : State) : (doFramingError l s).screen = s.screen := by
  unfold doFramingError; (try dsimp only); (repeat' split) <;> simp
@[simp] theorem doFramingError_pending (l : Link) (s : State) : (doFramingError l s).pending = s.pending := by
  unfold doFramingError; (try dsimp only); (repeat' split) <;> simp

@[simp] theorem doAbsenceExpiry_programs (l : Link) (s : State) : (doAbsenceExpiry l s).programs = s.programs := by
  unfold doAbsenceExpiry; (try dsimp only); (repeat' split) <;> simp
@[simp] theorem doAbsenceExpiry_map (l : Link) (s : State) : (doAbsenceExpiry l s).map = s.map := by
  unfold doAbsenceExpiry; (try dsimp only); (repeat' split) <;> simp
@[simp] theorem doAbsenceExpiry_issuer (l : Link) (s : State) : (doAbsenceExpiry l s).issuer = s.issuer := by
  unfold doAbsenceExpiry; (try dsimp only); (repeat' split) <;> simp
@[simp] theorem doAbsenceExpiry_channels (l : Link) (s : State) : (doAbsenceExpiry l s).channels = s.channels := by
  unfold doAbsenceExpiry; (try dsimp only); (repeat' split) <;> simp
@[simp] theorem doAbsenceExpiry_tracker (l : Link) (s : State) : (doAbsenceExpiry l s).tracker = s.tracker := by
  unfold doAbsenceExpiry; (try dsimp only); (repeat' split) <;> simp
@[simp] theorem doAbsenceExpiry_hold (l : Link) (s : State) : (doAbsenceExpiry l s).hold = s.hold := by
  unfold doAbsenceExpiry; (try dsimp only); (repeat' split) <;> simp
@[simp] theorem doAbsenceExpiry_screen (l : Link) (s : State) : (doAbsenceExpiry l s).screen = s.screen := by
  unfold doAbsenceExpiry; (try dsimp only); (repeat' split) <;> simp
@[simp] theorem doAbsenceExpiry_pending (l : Link) (s : State) : (doAbsenceExpiry l s).pending = s.pending := by
  unfold doAbsenceExpiry; (try dsimp only); (repeat' split) <;> simp

theorem withHead_ports (p : PortId) (g : Head → State → State) (hg : ∀ h s, (g h s).ports = s.ports) (s : State) :
    (withHead p g s).ports = s.ports := by unfold withHead; split <;> simp [hg]
theorem withHead_programs (p : PortId) (g : Head → State → State) (hg : ∀ h s, (g h s).programs = s.programs) (s : State) :
    (withHead p g s).programs = s.programs := by unfold withHead; split <;> simp [hg]
theorem withHead_map (p : PortId) (g : Head → State → State) (hg : ∀ h s, (g h s).map = s.map) (s : State) :
    (withHead p g s).map = s.map := by unfold withHead; split <;> simp [hg]
theorem withHead_issuer (p : PortId) (g : Head → State → State) (hg : ∀ h s, (g h s).issuer = s.issuer) (s : State) :
    (withHead p g s).issuer = s.issuer := by unfold withHead; split <;> simp [hg]
theorem withHead_links (p : PortId) (g : Head → State → State) (hg : ∀ h s, (g h s).links = s.links) (s : State) :
    (withHead p g s).links = s.links := by unfold withHead; split <;> simp [hg]
theorem withHead_channels (p : PortId) (g : Head → State → State) (hg : ∀ h s, (g h s).channels = s.channels) (s : State) :
    (withHead p g s).channels = s.channels := by unfold withHead; split <;> simp [hg]
theorem withHead_bond (p : PortId) (g : Head → State → State) (hg : ∀ h s, (g h s).bond = s.bond) (s : State) :
    (withHead p g s).bond = s.bond := by unfold withHead; split <;> simp [hg]
theorem withHead_tracker (p : PortId) (g : Head → State → State) (hg : ∀ h s, (g h s).tracker = s.tracker) (s : State) :
    (withHead p g s).tracker = s.tracker := by unfold withHead; split <;> simp [hg]
theorem withHead_pull (p : PortId) (g : Head → State → State) (hg : ∀ h s, (g h s).pull = s.pull) (s : State) :
    (withHead p g s).pull = s.pull := by unfold withHead; split <;> simp [hg]
theorem withHead_hold (p : PortId) (g : Head → State → State) (hg : ∀ h s, (g h s).hold = s.hold) (s : State) :
    (withHead p g s).hold = s.hold := by unfold withHead; split <;> simp [hg]
theorem withHead_screen (p : PortId) (g : Head → State → State) (hg : ∀ h s, (g h s).screen = s.screen) (s : State) :
    (withHead p g s).screen = s.screen := by unfold withHead; split <;> simp [hg]
theorem withHead_pending (p : PortId) (g : Head → State → State) (hg : ∀ h s, (g h s).pending = s.pending) (s : State) :
    (withHead p g s).pending = s.pending := by unfold withHead; split <;> simp [hg]

end Sys2Proof.Machine
end

