-- ==== Sys2Proof/Laws/Feeds.lean ====
section
/-! SUPPORT. The feeds after each shared operation that changes them. -/

set_option Elab.async false
set_option linter.all false

namespace Sys2Proof.Machine

theorem State.feed_eq {s t : State} (h : t.issuer.feeds = s.issuer.feeds) (k : Head) : t.feed k = s.feed k := by
  unfold State.feed; rw [h]

theorem State.feed_trigger (s : State) (k : Head) : s.trigger.feed k = (s.feed k).trigger := by cases k <;> rfl

theorem State.feed_clearCursors (s : State) (k : Head) : s.clearCursors.feed k = { s.feed k with cursor := none } := by
  cases k <;> rfl

theorem State.feed_cancelTicket (s : State) (h k : Head) (w : StrayReason) (t : Ticket) :
    (s.cancelTicket h w t).feed k = if k = h then (s.feed h).remove t else s.feed k := by
  rw [State.feed_eq (s := s.setFeed h ((s.feed h).remove t)) (by simp [State.cancelTicket, State.feed]), State.feed_setFeed]

theorem State.feed_grantTicket (s : State) (h k : Head) (t : Ticket) :
    (s.grantTicket h t).feed k = if k = h then (s.feed h).append t else s.feed k := by
  rw [State.feed_eq (s := s.setFeed h ((s.feed h).append t)) (by simp [State.grantTicket, State.feed]), State.feed_setFeed]

theorem State.feed_issueTo (s : State) (h k : Head) (t : Ticket) :
    (s.issueTo h t).feed k = if k = h then ((s.feed h).append t).countIssue ⟨t.unit, t.wire⟩ else s.feed k := by
  simp only [State.issueTo, State.feed_setFeed, State.feed_grantTicket, if_true]
  split <;> simp_all

theorem State.feed_dropRequest (s : State) (h k : Head) :
    (s.dropRequest h).feed k = if k = h then { s.feed h with request := none } else s.feed k := State.feed_setFeed ..

theorem State.feed_waitFor (s : State) (p : PortId) (h k : Head) (r : Request) :
    (s.waitFor p h r).feed k = if k = h then { s.feed h with request := some r } else s.feed k := by
  rw [State.feed_eq (s := s.setFeed h { s.feed h with request := some r }) (by simp [State.waitFor]), State.feed_setFeed]

theorem State.feed_detectTouch (s : State) (c : ChanId) (h k : Head) (b : Channel) (v : Int) :
    (s.detectTouch c h b v).feed k
      = if k = h ∧ b.touches v = true ∧ (s.feed h).latch = false then { (s.feed h).stop .touch with latch := true }
        else s.feed k := by
  have e : ∀ x, (s.setChan c x).feed = s.feed := fun x => rfl
  unfold State.detectTouch
  dsimp only
  split
  · rename_i hh
    rw [State.feed_eq (s := s.setFeed h { (s.feed h).stop .touch with latch := true }) (by simp [State.feed]), State.feed_setFeed]
    simp_all
  · rw [e]
    split
    · simp_all
    · rfl

theorem State.feed_commit (s : State) (h k : Head) (t : Ticket) (ph : Phase) (r : BondResult) :
    (s.commit h t ph r).feed k = if k = h ∧ ph = .stitch then (s.feed h).remove t else s.feed k := by
  cases ph
  · simp [State.commit]; exact State.feed_eq (by simp) k
  · rw [State.feed_eq (s := s.setFeed h ((s.feed h).remove t)) (by simp [State.commit, State.feed]), State.feed_setFeed]
    simp

theorem State.feed_reportVerdict (s : State) (h k : Head) (t : Ticket) (ph : Phase) (r : BondResult) (x y : Bool) :
    (s.reportVerdict h t ph r x y).feed k
      = if k = h ∧ r.verdict = .fail then (s.feed h).stop .fail else s.feed k := by
  unfold State.reportVerdict
  split
  · rename_i hh
    rw [State.feed_eq (s := s.setFeed h ((s.feed h).stop .fail)) (by simp), State.feed_setFeed]
    simp [hh.1]
  · rename_i hh
    rw [State.feed_eq (s := s) (by simp)]
    split
    · rename_i hv
      obtain ⟨rfl, hv⟩ := hv
      simp only [hv, true_and] at hh
      simp [Feed.stop, hh]
    · rfl

theorem State.feed_buildMap (s : State) (i : Nat) (q : Program) (r : StripRecord) (k : Head) :
    (s.buildMap i q r).feed k = ({ s.feed k with cursor := none } : Feed).trigger := by
  unfold State.buildMap
  dsimp only
  rw [State.feed_trigger, State.feed_clearCursors, State.feed_eq (s := s) (by simp)]

theorem State.feed_releaseZone (s : State) (r : StripRecord) (m : StripMap) (k : Head) :
    (s.releaseZone r m).feed k = { s.feed k with cursor := none } := by
  have e : ∀ (u : State) (x : Tracker), ({ u with tracker := x } : State).feed k = u.feed k := fun _ _ => rfl
  unfold State.releaseZone
  dsimp only
  rw [e, State.feed_clearCursors]
  rw [State.feed_eq (s := s)]
  split <;> simp

theorem State.feed_discardWork (s : State) (k : Head) : s.discardWork.feed k = (s.feed k).restart := by
  have e : s.emptyCaptures.discardMap.issuer = s.issuer := by simp
  unfold State.discardWork
  cases k <;> simp only [State.feed, PerHead.get, e]

theorem State.feed_closeBound (s : State) (h k : Head) (w : Window) (t : Ticket) (ph : Phase) :
    (s.closeBound h w t ph).feed k
      = (match ph with | .ball => id | .stitch => Feed.trigger)
          (let f := if k = h ∧ ph = Phase.stitch then (s.feed h).remove t else s.feed k
           if k = h ∧ (w.judge (s.limitSet t.limitSet) ph (s.chan (zChan h)).metric (s.chan (usChan h)).metric).verdict
              = Verdict.fail then
             f.stop StopReason.fail else f) := by
  unfold State.closeBound
  dsimp only
  cases ph <;> dsimp only
  all_goals
    try rw [State.feed_trigger]
    rw [State.feed_eq (s := (((s.commit h t _ _).setCapture h _).reportVerdict h t _ _ _ _)) (by simp; rfl)]
    rw [State.feed_reportVerdict]
    have e : ∀ (u : State) x j, (u.setCapture h x).feed j = u.feed j := fun _ _ _ => rfl
    simp only [e, State.feed_commit, id]
    by_cases hk : k = h <;> simp [hk]

theorem State.feed_sample (s : State) (c : ChanId) (x : Int) (k : Head) :
    (s.sample c x).feed k = s.feed k
      ∨ ((s.feed k).latch = false ∧ (s.sample c x).feed k = { (s.feed k).stop .touch with latch := true }) := by
  have e : ∀ (u : State) c x j, (u.setChan c x).feed j = u.feed j := fun _ _ _ _ => rfl
  unfold State.sample
  dsimp only
  split
  · exact .inl rfl
  · split
    · exact .inl rfl
    · unfold State.deliverValue
      split
      · rename_i v _ h _
        have e2 : ∀ (u : State) x, (u.setCapture h x).feed k = u.feed k := fun _ _ => rfl
        dsimp only
        rw [e2, State.feed_detectTouch, e]
        split
        · rename_i hh; obtain ⟨rfl, -, hl⟩ := hh; exact .inr ⟨hl, rfl⟩
        · exact .inl (e ..)
      · exact .inl rfl

end Sys2Proof.Machine
end

