-- ==== Sys2Proof/Laws/Attempts.lean ====
section
/-! SUPPORT. What a serve decides reads these blocks only, and not the request that is being served. -/

set_option Elab.async false
set_option linter.all false

namespace Sys2Proof.Machine

/-- A feed without its waiting request. -/
def Feed.plain (f : Feed) : Feed := { f with request := none }

theorem State.boundProgram_congr {s t : State} (hp : s.programs = t.programs) (m : StripMap) :
    s.boundProgram m = t.boundProgram m := by simp only [State.boundProgram, State.program?, hp]

theorem State.guardFree_congr {s t : State} (hp : s.programs = t.programs) (hg : s.issuer.guard = t.issuer.guard) (h : Head)
    (ht : (s.feed h.other).tickets = (t.feed h.other).tickets) (m : StripMap) (i : SlotId) :
    s.guardFree m h i = t.guardFree m h i := by
  simp only [State.guardFree, hg, ht, State.boundProgram_congr hp]

theorem State.eligible_congr {s t : State} (hp : s.programs = t.programs) (hg : s.issuer.guard = t.issuer.guard) (h : Head)
    (ht : (s.feed h.other).tickets = (t.feed h.other).tickets) (m : StripMap) : s.eligible m h = t.eligible m h := by
  funext i; simp only [State.eligible, State.guardFree_congr hp hg h ht, State.boundProgram_congr hp]

theorem State.scanFor_congr {s t : State} (hp : s.programs = t.programs) (h : Head)
    (hf : (s.feed h).plain = (t.feed h).plain) (m : StripMap) :
    s.scanFor m h = t.scanFor m h := by
  have e : ∀ f : Feed, f.scan = f.plain.scan := fun _ => rfl
  simp only [State.scanFor, State.boundProgram_congr hp]
  rw [e (s.feed h), e (t.feed h), hf]

/-- A serve decides alike in two states that differ in nothing it reads. -/
theorem State.attempt_congr {s t : State} (hm : s.map = t.map) (hp : s.programs = t.programs) (hh : s.hold = t.hold)
    (hc : s.tracker.clamp = t.tracker.clamp) (hg : s.issuer.guard = t.issuer.guard) (h : Head)
    (ht : (s.feed h.other).tickets = (t.feed h.other).tickets)
    (hf : (s.feed h).plain = (t.feed h).plain) : s.attempt h = t.attempt h := by
  have e1 : (s.feed h).plain.state = (t.feed h).plain.state := by rw [hf]
  have e2 : (s.feed h).plain.depth = (t.feed h).plain.depth := by rw [hf]
  have e3 : (s.feed h).plain.tickets = (t.feed h).plain.tickets := by rw [hf]
  simp only [Feed.plain] at e1 e2 e3
  simp only [State.attempt, State.held, hm, hh, hc, e1, e2, e3, State.scanFor_congr hp h hf, State.eligible_congr hp hg h ht,
    State.guardFree_congr hp hg h ht, State.boundProgram_congr hp]

theorem State.attempt_dropRequest (s : State) (h : Head) : (s.dropRequest h).attempt h = s.attempt h :=
  State.attempt_congr (s := s.dropRequest h) (t := s) rfl rfl rfl rfl rfl h (by cases h <;> rfl) (by cases h <;> rfl)

end Sys2Proof.Machine
end

