-- ==== Sys2Proof/Laws/Finish.lean ====
section
/-! SUPPORT. What the end of an event does and leaves: it changes the screen only, and nothing where the event changed
neither the banner, nor the text of an automatic field, nor the dirty rows. -/

set_option Elab.async false
set_option linter.all false

namespace Sys2Proof.Machine

theorem State.finish_eq (old new : State) : old.finish new = { new with screen := (old.finish new).screen } := rfl

/-- The screen brought up to date reads the hold state and the field texts of the state before the event. -/
theorem State.redraw_congr {old old' new : State} (hb : old.hold = old'.hold)
    (ht : ∀ k, old.fieldText k = old'.fieldText k) : old.redraw new = old'.redraw new := by
  have e : ∀ c b r, Screen.refresh c b old new r = Screen.refresh c b old' new r := by
    intro c b r
    unfold Screen.refresh
    split
    · rw [ht]
    · rfl
  simp only [State.redraw, e, hb]

/-- Nothing is drawn where neither the banner nor a field text changed. -/
theorem State.redraw_self {old new : State} (hb : old.hold.banner = new.hold.banner)
    (ht : ∀ k, old.fieldText k = new.fieldText k) : old.redraw new = new.screen := by
  have h : ∀ (l : List (Option Region)) (c : Screen), l.foldl (fun c r => c.refresh new.hold.banner old new r) c = c := by
    intro l
    induction l with
    | nil => intro c; rfl
    | cons r l ih =>
      intro c
      have e : c.refresh new.hold.banner old new r = c := by
        unfold Screen.refresh
        split
        · rw [if_pos (ht _)]
        · rfl
      rw [List.foldl_cons, e, ih]
  rw [State.redraw, if_pos hb, h]

/-- What the end of an event reads of the state before it. -/
theorem State.finish_congr {old old' new : State} (hb : old.hold = old'.hold)
    (ht : ∀ k, old.fieldText k = old'.fieldText k) (hd : old.screen.dirty = old'.screen.dirty) :
    old.finish new = old'.finish new := by
  unfold State.finish
  rw [State.redraw_congr hb ht, hd]

theorem State.finish_self {old new : State} (hb : old.hold.banner = new.hold.banner)
    (ht : ∀ k, old.fieldText k = new.fieldText k) (hd : new.screen.dirty = old.screen.dirty) : old.finish new = new := by
  unfold State.finish
  rw [State.redraw_self hb ht]
  simp only [hd, if_true]

/-- The field texts read these blocks only. -/
theorem State.fieldText_congr {s t : State} (h1 : s.tracker = t.tracker) (h2 : s.map = t.map) (h3 : s.programs = t.programs)
    (h4 : s.issuer = t.issuer) (h5 : s.bond = t.bond) (h6 : s.pull = t.pull) (k : FieldKind) :
    s.fieldText k = t.fieldText k := by
  have e : s.program? = t.program? := by funext i; simp only [State.program?, h3]
  cases k <;> simp only [State.fieldText, State.feed, State.capture, h1, h2, h4, h5, h6, e]

theorem State.finish_portsChange (s : State) (x : PerPort Port) : s.finish { s with ports := x } = { s with ports := x } :=
  State.finish_self rfl (State.fieldText_congr rfl rfl rfl rfl rfl rfl) rfl

theorem State.finish_setPort (s : State) (p : PortId) (x : Port) : s.finish (s.setPort p x) = s.setPort p x :=
  State.finish_portsChange s _

theorem State.finish_same (s : State) : s.finish s = s := State.finish_self rfl (fun _ => rfl) rfl

theorem State.finish_setPort_left (s new : State) (p : PortId) (x : Port) : (s.setPort p x).finish new = s.finish new :=
  State.finish_congr rfl (State.fieldText_congr rfl rfl rfl rfl rfl rfl) rfl

end Sys2Proof.Machine
end

