-- ==== Sys2Proof/Laws/Rows.lean ====
section
/-! SUPPORT. The row of an atomic command is the command carried out with the row's parameter bytes. -/

set_option Elab.async false
set_option linter.all false

namespace Sys2Proof.Machine

theorem b8_toNat (x : Byte) : b8 x.toNat = x := by simp [b8]

theorem be16_join (n : Nat) (h : n < 65536) : (b8 (n / 256)).toNat * 256 + (b8 n).toNat = n := by
  simp only [b8, BitVec.toNat_ofNat]; omega

theorem be24_join (n : Nat) (h : n < 16777216) :
    (b8 (n / 65536)).toNat * 65536 + (b8 (n / 256)).toNat * 256 + (b8 n).toNat = n := by
  simp only [b8, BitVec.toNat_ofNat]; omega

theorem be32_join (n : Nat) (h : n < 4294967296) :
    (b8 (n / 16777216)).toNat * 16777216 + (b8 (n / 65536)).toNat * 65536 + (b8 (n / 256)).toNat * 256 + (b8 n).toNat = n := by
  simp only [b8, BitVec.toNat_ofNat]; omega

@[simp] theorem be16_word (x : W16) : (b8 (x.toNat / 256)).toNat * 256 + (b8 x.toNat).toNat = x.toNat := be16_join _ x.isLt
@[simp] theorem be24_word (x : W24) :
    (b8 (x.toNat / 65536)).toNat * 65536 + (b8 (x.toNat / 256)).toNat * 256 + (b8 x.toNat).toNat = x.toNat :=
  be24_join _ x.isLt
@[simp] theorem be32_word (x : W32) :
    (b8 (x.toNat / 16777216)).toNat * 16777216 + (b8 (x.toNat / 65536)).toNat * 65536 + (b8 (x.toNat / 256)).toNat * 256
      + (b8 x.toNat).toNat = x.toNat := be32_join _ x.isLt

/-- What an atomic command's row does at the taking. -/
theorem exec_command {i : Instr} {p : PortId} {c : Cmd} (h : i.command? = some (p, c)) (s : State) :
    exec i s = .next (s.finish (s.atomicRow p c (paramBytes i) (carryOut c p (paramBytes i)))) := by
  cases i <;> simp only [Instr.command?, Option.some.injEq, Prod.mk.injEq, reduceCtorEq] at h <;> obtain ⟨rfl, rfl⟩ := h
  all_goals
    simp only [exec, execStat, execNote, execRun, execHalt, execNext, execClaim, execCancel, execArm, execDisarm, execFreset, execClrstop, execHstat, execPload, execLimset, execPsel, execPfree, execSkipu, execMaprd, execMaptake, execGuard, execChcfg, execSplan, execPtake, execHold, execRelease, execSetcode, execRgdef, execRgdel, execRestart, execMagld, execMagul, execFeed, execZone, execZrel, execStow, execClamp, execCldone, execPstart, execPend, execPvoid, execMgrd,
      carryOut]
    try simp [paramBytes, p8, p16, p24, p32, w16, be16, be24, be32, signed24, phaseBytes, PhaseLimits.ofBytes,
      PhaseLimits.ofWords]
end Sys2Proof.Machine
end

