-- ==== Sys2Proof/Laws/Taking.lean ====
section
/-! SUPPORT. The state at the taking of a command differs from the state before in the port only; and how a statement about
a command's answer follows from what the command does. -/

set_option Elab.async false
set_option linter.all false

namespace Sys2Proof.Machine

@[simp] theorem State.taking_programs (s : State) (i : Instr) : (s.taking i).programs = s.programs := by
  unfold State.taking; split <;> rfl
@[simp] theorem State.taking_map (s : State) (i : Instr) : (s.taking i).map = s.map := by
  unfold State.taking; split <;> rfl
@[simp] theorem State.taking_issuer (s : State) (i : Instr) : (s.taking i).issuer = s.issuer := by
  unfold State.taking; split <;> rfl
@[simp] theorem State.taking_links (s : State) (i : Instr) : (s.taking i).links = s.links := by
  unfold State.taking; split <;> rfl
@[simp] theorem State.taking_channels (s : State) (i : Instr) : (s.taking i).channels = s.channels := by
  unfold State.taking; split <;> rfl
@[simp] theorem State.taking_bond (s : State) (i : Instr) : (s.taking i).bond = s.bond := by
  unfold State.taking; split <;> rfl
@[simp] theorem State.taking_tracker (s : State) (i : Instr) : (s.taking i).tracker = s.tracker := by
  unfold State.taking; split <;> rfl
@[simp] theorem State.taking_pull (s : State) (i : Instr) : (s.taking i).pull = s.pull := by
  unfold State.taking; split <;> rfl
@[simp] theorem State.taking_hold (s : State) (i : Instr) : (s.taking i).hold = s.hold := by
  unfold State.taking; split <;> rfl
@[simp] theorem State.taking_screen (s : State) (i : Instr) : (s.taking i).screen = s.screen := by
  unfold State.taking; split <;> rfl
@[simp] theorem State.taking_pending (s : State) (i : Instr) : (s.taking i).pending = s.pending := by
  unfold State.taking; split <;> rfl
@[simp] theorem State.taking_feed (s : State) (i : Instr) : (s.taking i).feed = s.feed := by
  funext h; simp only [State.feed, State.taking_issuer]
@[simp] theorem State.taking_capture (s : State) (i : Instr) : (s.taking i).capture = s.capture := by
  funext h; simp only [State.capture, State.taking_bond]
@[simp] theorem State.taking_chan (s : State) (i : Instr) : (s.taking i).chan = s.chan := by
  funext h; simp only [State.chan, State.taking_channels]
@[simp] theorem State.taking_link (s : State) (i : Instr) : (s.taking i).link = s.link := by
  funext h; simp only [State.link, State.taking_links]
@[simp] theorem State.taking_program? (s : State) (i : Instr) : (s.taking i).program? = s.program? := by
  funext h; simp only [State.program?, State.taking_programs]
@[simp] theorem State.taking_boundProgram (s : State) (i : Instr) : (s.taking i).boundProgram = s.boundProgram := by
  funext h; simp only [State.boundProgram, State.taking_program?]
@[simp] theorem State.taking_limitSet (s : State) (i : Instr) : (s.taking i).limitSet = s.limitSet := by
  funext h; simp only [State.limitSet, State.taking_programs]

@[simp] theorem Head.port_head? (h : Head) : h.port.head? = some h := by cases h <;> rfl
@[simp] theorem withHead_port (h : Head) (f : Head → State → State) (s : State) : withHead h.port f s = f h s := by
  simp only [withHead, Head.port_head?]

/-- A command answers what it does at its taking. -/
theorem Answers.of_carryOut {i : Instr} {s : State} {p : PortId} {c : Cmd} {f u : State → State} {r : CmdResult} {d : Nat}
    {data : List Byte} (hc : i.command? = some (p, c))
    (he : exec i s = .next (s.finish (s.atomicRow p c (paramBytes i) f))) (hh : s.hears p) (ha : p.accepts c = true)
    (h : f (s.taking i) = (u (s.taking i)).respond p r d data) : Answers i s u r d data := by
  unfold State.hears at hh
  have e : s.taking i = s.setPort p ((s.port p).atTaking c (paramBytes i)) := by simp only [State.taking, hc]
  simp only [Answers, he, State.atomicRow, portOf, hc, Option.map, Option.getD, hh, State.takeAtomic, ha, if_true, ← e, h,
    Bool.false_eq_true, if_false]

end Sys2Proof.Machine
end

