-- ==== Sys2Proof/Laws/Bits.lean ====
section
/-! SUPPORT. The bits of a port's byte and of a link's word: what clock edges and line bits do before a byte or word is whole,
and at its last bit (R67, R184, R189). -/

set_option Elab.async false
set_option linter.all false

namespace Sys2Proof.Machine

/-- The bits of a byte in the order of a port, the most significant first (R184). -/
def msbFirst (d : Byte) : List Bool := (List.range 8).map (fun k => d.getLsbD (7 - k))

theorem byte_ofMsbFirst (d : Byte) : b8 (ofMsbFirst (msbFirst d)) = d := by
  revert d
  decide +kernel

/-- The bits of a byte determine it. -/
theorem byte_of_bits (bits : List Bool) (d : Byte) (n : bits.length = 8)
    (h : ∀ k, k < 8 → bits[k]? = some (d.getLsbD (7 - k))) : b8 (ofMsbFirst bits) = d := by
  have e : bits = msbFirst d := by
    apply List.ext_getElem?
    intro k
    by_cases hk : k < 8
    · rw [h k hk]
      simp [msbFirst, hk]
    · simp [msbFirst, n, Nat.le_of_not_lt hk]
  rw [e, byte_ofMsbFirst]

/-- The port with some bits of a byte received. -/
def Port.received (q : Port) (bits : List Bool) : Port :=
  { q with dataOut := q.outByte, unfinished := some { bits := bits, reads := q.unread } }

@[simp] theorem Port.inProgress_received (q : Port) (bits : List Bool) :
    (q.received bits).inProgress = { bits := bits, reads := q.unread } := rfl

@[simp] theorem Port.fixedOut_received (q : Port) (bits : List Bool) : (q.received bits).fixedOut = q.outByte := rfl

/-- The first clock edge of a byte (R189). -/
theorem State.clockEdge_first (s : State) (p : PortId) (x mode : Bool) (h : s.hears p) (u : (s.port p).unfinished = none) :
    s.clockEdge p x mode = s.setPort p ((s.port p).received [x]) := by
  unfold State.clockEdge
  have i : (s.port p).ignoring = false := h
  simp [i, Port.inProgress, Port.fixedOut, Port.received, u]

/-- A clock edge within a byte (R184). -/
theorem State.clockEdge_within (s : State) (p : PortId) (bits : List Bool) (x mode : Bool) (h : s.hears p)
    (n : bits.length < 7) :
    (s.setPort p ((s.port p).received bits)).clockEdge p x mode = s.setPort p ((s.port p).received (bits ++ [x])) := by
  unfold State.clockEdge
  have i : (s.port p).ignoring = false := h
  have g : ((s.port p).received bits).ignoring = false := h
  simp [g, show bits.length + 1 < 8 by omega]
  simp [Port.received, i]

/-- Clock edges fewer than a byte (R184). -/
theorem State.clockEdges (s : State) (p : PortId) (d : Byte) (mode : Nat → Bool) (h : s.hears p)
    (u : (s.port p).unfinished = none) (n : Nat) (n1 : 1 ≤ n) (n7 : n ≤ 7) :
    (List.range n).foldl (fun t k => t.clockEdge p (d.getLsbD (7 - k)) (mode k)) s
      = s.setPort p ((s.port p).received ((List.range n).map (fun k => d.getLsbD (7 - k)))) := by
  induction n with
  | zero => omega
  | succ n ih =>
    rw [List.range_succ, List.foldl_append]
    by_cases z : n = 0
    · subst z
      exact State.clockEdge_first s p _ _ h u
    · rw [ih (by omega) (by omega)]
      show State.clockEdge _ p _ _ = _
      rw [State.clockEdge_within s p _ _ _ h (by simp; omega)]
      simp

/-- The last clock edge of a byte (R184). -/
theorem State.clockEdge_last (s : State) (p : PortId) (bits : List Bool) (x mode : Bool) (h : s.hears p)
    (n : bits.length = 7) :
    (s.setPort p ((s.port p).received bits)).clockEdge p x mode
      = (s.setPort p { s.port p with dataOut := (s.port p).outByte, unfinished := none }).wholeByte p
          (b8 (ofMsbFirst (bits ++ [x]))) mode := by
  unfold State.clockEdge
  have g : ((s.port p).received bits).ignoring = false := h
  have e : ((s.port p).received bits).unread = (s.port p).unread := rfl
  have i : (s.port p).ignoring = false := h
  simp [g, n, e]
  simp [Port.received, i]

/-- The clock edges of a whole byte (R184). -/
theorem State.clockEdges_whole (s : State) (p : PortId) (d : Byte) (mode : Nat → Bool) (h : s.hears p)
    (u : (s.port p).unfinished = none) :
    (List.range 8).foldl (fun t k => t.clockEdge p (d.getLsbD (7 - k)) (mode k)) s
      = (s.setPort p { s.port p with dataOut := (s.port p).outByte, unfinished := none }).wholeByte p d (mode 7) := by
  rw [List.range_succ, List.foldl_append, State.clockEdges s p d mode h u 7 (by decide) (by decide)]
  show State.clockEdge _ p _ _ = _
  rw [State.clockEdge_last s p _ _ _ h (by simp)]
  congr 1
  have e : (List.range 7).map (fun k => d.getLsbD (7 - k)) ++ [d.getLsbD (7 - 7)] = msbFirst d := by
    simp [msbFirst, List.range_succ]
  rw [e, byte_ofMsbFirst]

theorem mod_two_pow_succ (m n : Nat) : m % 2 ^ (n + 1) = m % 2 ^ n + 2 ^ n * (m.testBit n).toNat := by
  rw [Nat.pow_succ, Nat.mod_mul, Nat.toNat_testBit]

/-- The bits of a number that arrive most significant first. -/
theorem ofMsbFirst_testBit (m n : Nat) :
    ofMsbFirst ((List.range n).map (fun k => m.testBit (n - 1 - k))) = m % 2 ^ n := by
  have from_ : ∀ n a, ((List.range n).map (fun k => m.testBit (n - 1 - k))).foldl (fun r b => 2 * r + b.toNat) a
      = a * 2 ^ n + m % 2 ^ n := by
    intro n
    induction n with
    | zero => intro a; simp [Nat.mod_one]
    | succ n ih =>
      intro a
      have e : (List.range (n + 1)).map (fun k => m.testBit (n + 1 - 1 - k))
          = m.testBit n :: (List.range n).map (fun k => m.testBit (n - 1 - k)) := by
        rw [List.range_succ_eq_map, List.map_cons, List.map_map]
        congr 1
        apply List.map_congr_left
        intro k hk
        show m.testBit (n + 1 - 1 - (k + 1)) = m.testBit (n - 1 - k)
        congr 1
        omega
      have m' : m % 2 ^ (n + 1) = m % 2 ^ n + 2 ^ n * (m.testBit n).toNat := mod_two_pow_succ m n
      rw [e, List.foldl_cons, ih, m', Nat.pow_succ, Nat.add_mul]
      have c : 2 * a * 2 ^ n = a * (2 ^ n * 2) := by rw [Nat.mul_comm 2 a, Nat.mul_assoc, Nat.mul_comm 2]
      have d : (m.testBit n).toNat * 2 ^ n = 2 ^ n * (m.testBit n).toNat := Nat.mul_comm _ _
      omega
  exact (from_ n 0).trans (by simp)

/-- A word of the line takes its payload from the two halves (section 11.8). -/
theorem word_ofBits (flag stop : Bool) (w : W32) :
    LinkWord.ofBits ([false, flag] ++ (List.range 16).map (fun k => w.getLsbD (15 - k))
      ++ (List.range 16).map (fun k => w.getLsbD (31 - k)) ++ [stop]) = { isAddress := flag, payload := w } := by
  have low := ofMsbFirst_testBit w.toNat 16
  have high := ofMsbFirst_testBit (w.toNat / 65536) 16
  have e : (List.range 16).map (fun k => w.getLsbD (31 - k))
      = (List.range 16).map (fun k => (w.toNat / 65536).testBit (16 - 1 - k)) := by
    apply List.map_congr_left
    intro k hk
    have k16 := List.mem_range.mp hk
    rw [BitVec.getLsbD, show (65536 : Nat) = 2 ^ 16 from rfl, Nat.testBit_div_two_pow]
    congr 1
    omega
  unfold LinkWord.ofBits
  rw [e]
  have d2 : ∀ (l h : List Bool), l.length = 16 → h.length = 16 →
      ((([false, flag] ++ l ++ h ++ [stop]).drop 2).take 16 = l) ∧ ((([false, flag] ++ l ++ h ++ [stop]).drop 18).take 16 = h) := by
    intro l h hl hh
    constructor
    · simp [hl]
    · simp [List.drop_append, hl, hh]
  obtain ⟨d, d'⟩ := d2 ((List.range 16).map (fun k => w.getLsbD (15 - k)))
    ((List.range 16).map (fun k => (w.toNat / 65536).testBit (16 - 1 - k))) (by simp) (by simp)
  rw [d, d', high]
  have l2 : ofMsbFirst ((List.range 16).map (fun k => w.getLsbD (15 - k))) = w.toNat % 65536 := low
  rw [l2]
  congr 1
  apply BitVec.eq_of_toNat_eq
  have := w.isLt
  rw [BitVec.toNat_ofNat]
  omega

/-- A receiver with some bits of a word received. -/
def State.receiving (s : State) (l : Link) (bits : List Bool) : State := s.setLink l { s.link l with assembling := bits }

/-- A line bit within a word (R67). -/
theorem State.linkBit_within (s : State) (l : Link) (bits : List Bool) (level : Bool) (h : (s.link l).atRest = true)
    (start : bits ≠ [] ∨ level = false) (n : bits.length < 34) :
    (s.receiving l bits).linkBit l level = s.receiving l (bits ++ [level]) := by
  unfold State.linkBit State.receiving
  have e : ¬(bits = [] ∧ level = true) := fun ⟨a, b⟩ => start.elim (fun x => x a) (fun x => by simp [b] at x)
  simp [h, linkRest, e, show bits.length + 1 < 35 by omega]

/-- The line bits of a word before it is complete (R67). -/
theorem State.linkBits (s : State) (l : Link) (h : (s.link l).atRest = true) (word : List Bool) (n : word.length ≤ 33) :
    ([false] ++ word).foldl (fun t level => t.linkBit l level) (s.receiving l []) = s.receiving l ([false] ++ word) := by
  have from_ : ∀ (more got : List Bool), got ≠ [] → got.length + more.length ≤ 34 →
      more.foldl (fun t level => t.linkBit l level) (s.receiving l got) = s.receiving l (got ++ more) := by
    intro more
    induction more with
    | nil => intro got _ _; simp
    | cons x more ih =>
      intro got g k
      simp only [List.length_cons] at k
      rw [List.foldl_cons, State.linkBit_within s l got x h (.inl g) (by omega), ih _ (by simp) (by simp; omega)]
      simp
  rw [List.foldl_append]
  have first : [false].foldl (fun t level => t.linkBit l level) (s.receiving l []) = s.receiving l [false] :=
    State.linkBit_within s l [] false h (.inr rfl) (by simp)
  rw [first, from_ word [false] (by simp) (by simp; omega)]

/-- The last line bit of a word (R67 to R69). -/
theorem State.linkBit_last (s : State) (l : Link) (bits : List Bool) (level : Bool) (h : (s.link l).atRest = true)
    (n : bits.length = 34) :
    (s.receiving l bits).linkBit l level
      = (s.receiving l bits).finish ((s.receiving l []).completeWord l (bits ++ [level])) := by
  unfold State.linkBit State.receiving
  have e : bits ≠ [] := by intro e; simp [e] at n
  simp [h, e, n]

end Sys2Proof.Machine
end

