-- ==== Sys2Proof/Laws/Keep.lean ====
section
/-! SUPPORT. What a step can do, said once: a law that does not read the screen nor the framing of the ports is kept by
every step if each taking of a command and each event keeps it. -/

set_option Elab.async false
set_option linter.all false

namespace Sys2Proof.Machine

/-- What it takes for a law to be kept by every step. -/
structure Keeps (P : State → Prop) : Prop where
  /-- A port changes, its queue not. -/
  port : ∀ s p x, x.queue = (s.port p).queue → P s → P (s.setPort p x)
  /-- The screen changes. -/
  screen : ∀ s x, P s → P { s with screen := x }
  /-- The waiting commands change. -/
  pending : ∀ s x, P s → P { s with pending := x }
  /-- A command is carried out. -/
  command : ∀ c p bs s, P s → P (carryOut c p bs s)
  group : ∀ p i bs s, P s → P (s.takePwireGroup p i bs)
  arbiter : ∀ s, P s → P (doArbiterServe s)
  fill : ∀ s, P s → P (doFillServe s)
  opens : ∀ h s, (s.capture h).win = false → P s → P (s.openWindow h)
  closes : ∀ h s, (s.capture h).win = true → P s → P (s.closeWindow h)
  holdOn : ∀ s, P s → P ((s.setHoldin true).addReason 2 .line)
  holdOff : ∀ s, P s → P ((s.setHoldin false).removeReasons 3 (.single .line))
  rst : ∀ lines l, P (State.released lines l)
  address : ∀ l w s, P s → P (s.goodWord l fun r => r.address l w)
  data : ∀ l w s, P s → P (doDataWord l w s)
  framing : ∀ l s, P s → P (doFramingError l s)
  expiry : ∀ l s, (s.link l).timer.isSome = true → P s → P (doAbsenceExpiry l s)
  rest : ∀ l s, P s → P (s.setLink l { s.link l with atRest := true })

variable {P : State → Prop}

theorem Keeps.finish (k : Keeps P) (old s : State) (h : P s) : P (old.finish s) := k.screen _ _ h

theorem Keeps.respond (k : Keeps P) (s : State) (p : PortId) (r : CmdResult) (d : Nat) (l : List Byte) (h : P s) :
    P (s.respond p r d l) := k.port _ _ _ rfl h

theorem Port.atTaking_queue (q : Port) (c : Cmd) (bs : List Byte) : (q.atTaking c bs).queue = q.queue := by
  unfold Port.atTaking Port.commandByte; (repeat' split) <;> rfl

theorem Keeps.takeAtomic (k : Keeps P) (s : State) (p : PortId) (c : Cmd) (bs : List Byte) (h : P s) :
    P (s.takeAtomic p c (carryOut c p bs)) := by
  unfold State.takeAtomic
  split
  · exact k.command _ _ _ _ h
  · exact k.respond _ _ _ _ _ h

theorem Keeps.atomicRow (k : Keeps P) (s : State) (p : PortId) (c : Cmd) (bs : List Byte) (h : P s) :
    P (s.atomicRow p c bs (carryOut c p bs)) := by
  unfold State.atomicRow
  split
  · exact h
  · exact k.takeAtomic _ _ _ _ (k.port _ _ _ (Port.atTaking_queue _ _ _) h)

theorem Keeps.paramByte (k : Keeps P) (s : State) (p : PortId) (d : Byte) (h : P s) : P (s.paramByte p d) := by
  have h1 : ∀ f v, P (s.setPort p { s.port p with dataOut := (s.port p).outByte, unfinished := none, framing := f, previous := v }) :=
    fun f v => k.port _ _ _ rfl h
  have h0 : P (s.setPort p { s.port p with dataOut := (s.port p).outByte, unfinished := none }) := k.port _ _ _ rfl h
  unfold State.paramByte
  dsimp only
  split <;> try simp only [State.setPort_setPort]
  all_goals first
    | exact h0
    | exact h1 _ _
    | skip
  · split
    · exact h1 _ _
    · exact k.takeAtomic _ _ _ _ (h1 _ _)
  · unfold State.takePwireSlot; dsimp only
    split
    · exact k.port _ _ _ rfl h0
    · split <;> exact k.port _ _ _ rfl h0
  · split
    · exact h1 _ _
    · exact k.group _ _ _ _ h0
  · split
    · exact h1 _ _
    · exact k.port _ _ _ rfl h0
  · unfold State.takeText
    split
    · exact h0
    · exact k.port _ _ _ rfl (k.screen _ _ h0)

theorem Keeps.byteEvent (k : Keeps P) (s : State) (p : PortId) (d : Byte) (h : P s) : P (s.byteEvent p d) := by
  unfold State.byteEvent
  split
  · exact h
  · exact k.finish _ _ (k.paramByte _ _ _ h)

theorem Keeps.deliver (k : Keeps P) (p : PortId) (bs : List Byte) (s : State) (h : P s) : P (s.deliver p bs) := by
  induction bs generalizing s with
  | nil => exact h
  | cons b bs ih => exact ih _ (k.byteEvent _ _ _ h)

theorem Keeps.commandByte (k : Keeps P) (s : State) (p : PortId) (c : Cmd) (h : P s) : P (s.commandByte p c) := by
  unfold State.commandByte
  split
  · exact h
  · exact k.port _ _ _ rfl h

/-- A command or event that goes on keeps the law. -/
theorem Keeps.exec (k : Keeps P) (i : Instr) (s t : State) (h : P s) (e : exec i s = .next t) : P t := by
  cases hc : i.command? with
  | some x =>
    rw [exec_command (p := x.1) (c := x.2) hc] at e
    cases e
    exact k.finish _ _ (k.atomicRow _ _ _ _ h)
  | none =>
    cases i <;> simp only [Instr.command?, reduceCtorEq] at hc
    case rst l => cases e; exact k.rst _ _
    case readoutByte => cases e; exact k.byteEvent _ _ _ h
    case wtxtTextByte => cases e; exact k.deliver _ _ _ h
    case pwireGroup => cases e; exact k.deliver _ _ _ h
    case pwire =>
      simp only [Sys2Proof.Machine.exec, execPwire] at e
      split at e <;> cases e
      · exact k.deliver _ _ _ h
      · exact k.deliver _ _ _ (k.commandByte _ _ _ h)
    case wtxt =>
      simp only [Sys2Proof.Machine.exec, execWtxt] at e
      split at e <;> cases e
      · exact k.deliver _ _ _ h
      · exact k.deliver _ _ _ (k.commandByte _ _ _ h)
    case unknownCommand =>
      simp only [Sys2Proof.Machine.exec, execUnknownCommand] at e
      split at e <;> cases e
      apply k.finish
      split
      · exact h
      · exact k.respond _ _ _ _ _ (k.port _ _ _ rfl h)
    case commandByte =>
      simp only [Sys2Proof.Machine.exec, execCommandByte] at e
      split at e <;> cases e
      exact k.finish _ _ (k.commandByte _ _ _ h)
    case selectRelease =>
      simp only [Sys2Proof.Machine.exec, execSelectRelease] at e
      split at e <;> cases e
      exact k.finish _ _ (k.port _ _ _ rfl h)
    case arbiterServe => cases e; exact k.finish _ _ (k.arbiter _ h)
    case fillServe => cases e; exact k.finish _ _ (k.fill _ h)
    case windowOpen =>
      cases e; apply k.finish; split
      · exact h
      · exact k.opens _ _ (by simp_all) h
    case windowClose =>
      cases e; apply k.finish; split
      · exact k.closes _ _ ‹_› h
      · exact h
    case holdinActive =>
      cases e; apply k.finish; split
      · exact h
      · exact k.holdOn _ h
    case holdinInactive =>
      cases e; apply k.finish; split
      · exact k.holdOff _ h
      · exact h
    case pnlrdyRise =>
      cases e; apply k.finish; split
      · exact h
      · exact k.screen _ _ h
    case pnlrdyFall =>
      cases e; apply k.finish; split
      · exact k.screen _ _ h
      · exact h
    case dlByteSent => cases e; exact k.finish _ _ (k.screen _ _ h)
    case addressWord =>
      cases e; apply k.finish; split
      · exact k.address _ _ _ h
      · exact h
    case dataWord =>
      cases e; apply k.finish; split
      · exact k.data _ _ _ h
      · exact h
    case framingError =>
      cases e; apply k.finish; split
      · exact k.framing _ _ h
      · exact h
    case absenceExpiry =>
      cases e; apply k.finish; split
      · exact k.expiry _ _ ‹_› h
      · exact h
    case lineReturnsToRest => cases e; exact k.finish _ _ (k.rest _ _ h)

/-- A step that goes on keeps the law. -/
theorem Keeps.step (k : Keeps P) (s t : State) (h : P s) (e : step s = .next t) : P t := by
  unfold Sys2Proof.Machine.step at e
  split at e
  · cases e; exact h
  · exact k.exec _ _ _ (k.pending _ _ h) e

end Sys2Proof.Machine
end

