-- ==== Sys2Proof/Laws/Numbers.lean ====
section
/-! SUPPORT. What the search for the next number not held gives: ticket numbers (R40) and pull record ids (R147). -/

set_option Elab.async false
set_option linter.all false

namespace Sys2Proof.Machine

/-- Where one of the numbers that the search may reach is not held, it gives the first of them. -/
theorem nextFree_isNextFree (modulus : Nat) (held : Nat → Bool) (k n : Nat) (hn : n < modulus)
    (h : ∃ e, e ≤ k ∧ held ((n + e) % modulus) = false) :
    isNextFree modulus (fun x => held x = true) n (nextFree modulus held k n) := by
  induction k generalizing n with
  | zero =>
    obtain ⟨e, he, hh⟩ := h
    obtain rfl : e = 0 := by omega
    rw [Nat.add_zero, Nat.mod_eq_of_lt hn] at hh
    exact ⟨by simp [nextFree, hh], 0, by simp [nextFree, Nat.mod_eq_of_lt hn], by omega⟩
  | succ k ih =>
    unfold nextFree
    by_cases hh : held n = true
    · rw [if_pos hh]
      obtain ⟨e, he, h2⟩ := h
      cases e with
      | zero => rw [Nat.add_zero, Nat.mod_eq_of_lt hn, hh] at h2; exact absurd h2 (by simp)
      | succ e =>
        have key : ∀ j, ((n + 1) % modulus + j) % modulus = (n + (j + 1)) % modulus := by
          intro j; rw [Nat.mod_add_mod]; congr 1; omega
        obtain ⟨a, d, b, c⟩ := ih ((n + 1) % modulus) (Nat.mod_lt _ (by omega)) ⟨e, by omega, by rw [key]; exact h2⟩
        refine ⟨a, d + 1, by rw [b, key], ?_⟩
        intro j hj
        cases j with
        | zero => rw [Nat.add_zero, Nat.mod_eq_of_lt hn]; exact hh
        | succ j => rw [← key]; exact c j (by omega)
    · rw [if_neg hh]
      exact ⟨hh, 0, by rw [Nat.add_zero, Nat.mod_eq_of_lt hn], by omega⟩

end Sys2Proof.Machine
end

