-- ==== Sys2Proof/Laws/Screen.lean ====
section
/-! SUPPORT. What drawing on the screen does: which cells change, and which rows join the dirty set (R175, R180). -/

set_option Elab.async false
set_option linter.all false

namespace Sys2Proof.Machine

/-- What drawing into the cells `P` under a banner can do: cells outside `P` stay, and the dirty set gains exactly the rows,
outside the banner, of cells that changed. -/
structure Screen.Draws (b : Banner) (P : Nat → Nat → Prop) (c c' : Screen) : Prop where
  regions : c'.regions = c.regions
  pnlrdy : c'.pnlrdy = c.pnlrdy
  tx : c'.tx = c.tx
  holding : c'.holding = c.holding
  shift : c'.shift = c.shift
  cell : ∀ row col, ¬P row col → c'.cell row col = c.cell row col
  dirty : ∀ row : Fin 20, c'.dirty[row] = true ↔ c.dirty[row] = true
    ∨ ((b = .none ∨ 2 ≤ row.val) ∧ ∃ col, c'.cell row.val col ≠ c.cell row.val col)

theorem Screen.Draws.refl (b : Banner) (P : Nat → Nat → Prop) (c : Screen) : Screen.Draws b P c c where
  regions := rfl
  pnlrdy := rfl
  tx := rfl
  holding := rfl
  shift := rfl
  cell _ _ _ := rfl
  dirty row := ⟨Or.inl, fun h => h.elim id (fun ⟨_, _, e⟩ => absurd rfl e)⟩

theorem Screen.Draws.mono {b : Banner} {P Q : Nat → Nat → Prop} {c c' : Screen} (h : Screen.Draws b P c c')
    (le : ∀ row col, P row col → Q row col) : Screen.Draws b Q c c' :=
  { h with cell := fun row col n => h.cell row col (fun p => n (le row col p)) }

/-- Drawing into one set of cells and then into another, apart from it. -/
theorem Screen.Draws.trans {b : Banner} {P Q : Nat → Nat → Prop} {c c' c'' : Screen} (h : Screen.Draws b P c c')
    (k : Screen.Draws b Q c' c'') (apart : ∀ row col, P row col → ¬Q row col) :
    Screen.Draws b (fun row col => P row col ∨ Q row col) c c'' where
  regions := k.regions.trans h.regions
  pnlrdy := k.pnlrdy.trans h.pnlrdy
  tx := k.tx.trans h.tx
  holding := k.holding.trans h.holding
  shift := k.shift.trans h.shift
  cell row col n := (k.cell row col (fun q => n (.inr q))).trans (h.cell row col (fun p => n (.inl p)))
  dirty row := by
    rw [k.dirty, h.dirty]
    constructor
    · rintro ((d | ⟨v, col, e⟩) | ⟨v, col, e⟩)
      · exact .inl d
      · refine .inr ⟨v, col, ?_⟩
        have p : P row.val col := Classical.byContradiction (fun n => e (h.cell _ _ n))
        rwa [k.cell _ _ (apart _ _ p)]
      · refine .inr ⟨v, col, ?_⟩
        have q : Q row.val col := Classical.byContradiction (fun n => e (k.cell _ _ n))
        have np : ¬P row.val col := fun p => apart _ _ p q
        rwa [← h.cell _ _ np]
    · rintro (d | ⟨v, col, e⟩)
      · exact .inl (.inl d)
      · by_cases q : c''.cell row.val col = c'.cell row.val col
        · exact .inl (.inr ⟨v, col, q ▸ e⟩)
        · exact .inr ⟨v, col, q⟩

/-- The stored cell after a write. -/
theorem Screen.cell_write (c : Screen) (b : Banner) (row col : Nat) (x : Cell) (i j : Nat) :
    (c.write b row col x).cell i j = if row = i ∧ col = j ∧ row < 20 ∧ col < 48 then x else c.cell i j := by
  have put : ∀ (v : Vector (Vector Cell 48) 20),
      (((v.setIfInBounds row ((v.getD row (Vector.replicate 48 Cell.blank)).setIfInBounds col x))[i]?).bind
        (fun r => r[j]?)).getD Cell.blank
      = if row = i ∧ col = j ∧ row < 20 ∧ col < 48 then x else ((v[i]?).bind (fun r => r[j]?)).getD Cell.blank := by
    intro v
    by_cases hr : row = i
    · subst hr
      by_cases hb : row < 20
      · by_cases hc : col = j
        · subst hc
          by_cases hd : col < 48
          · simp [hb, hd, Vector.getElem?_setIfInBounds]
          · simp [hb, hd, Vector.getElem?_setIfInBounds, Vector.getD]
        · simp [hb, hc, Vector.getElem?_setIfInBounds, Vector.getD]
      · simp [hb, Vector.getElem?_setIfInBounds]
    · simp [hr, Vector.getElem?_setIfInBounds]
  unfold Screen.write
  split
  · rename_i same
    split
    · rename_i h
      rw [← same, h.1, h.2.1]
    · rfl
  · split
    · exact put c.cells
    · exact put c.cells

/-- One write draws one cell. -/
theorem Screen.draws_write (c : Screen) (b : Banner) (row col : Nat) (x : Cell) (hr : row < 20) (hc : col < 48) :
    Screen.Draws b (fun i j => i = row ∧ j = col) c (c.write b row col x) where
  regions := by unfold Screen.write; split <;> (try split) <;> rfl
  pnlrdy := by unfold Screen.write; split <;> (try split) <;> rfl
  tx := by unfold Screen.write; split <;> (try split) <;> rfl
  holding := by unfold Screen.write; split <;> (try split) <;> rfl
  shift := by unfold Screen.write; split <;> (try split) <;> rfl
  cell i j n := by rw [Screen.cell_write, if_neg (fun h => n ⟨h.1.symm, h.2.1.symm⟩)]
  dirty i := by
    have changed : (∃ j, (c.write b row col x).cell i.val j ≠ c.cell i.val j) ↔ i.val = row ∧ c.cell row col ≠ x := by
      constructor
      · rintro ⟨j, e⟩
        rw [Screen.cell_write] at e
        split at e
        · rename_i h
          obtain ⟨h1, h2, -⟩ := h
          subst h2
          exact ⟨h1.symm, fun k => e (by rw [← h1]; exact k.symm)⟩
        · exact absurd rfl e
      · rintro ⟨h, n⟩
        refine ⟨col, ?_⟩
        rw [Screen.cell_write, if_pos ⟨h.symm, rfl, hr, hc⟩, h]
        exact fun k => n k.symm
    rw [changed]
    unfold Screen.write
    split
    · rename_i same
      exact ⟨.inl, fun h => h.elim id (fun k => absurd same k.2.2)⟩
    · rename_i differs
      split
      · rename_i under
        refine ⟨.inl, fun h => h.elim id (fun k => ?_)⟩
        have r2 : row < 2 := under.2
        rcases k.1 with e | e
        · exact absurd e under.1
        · omega
      · rename_i shown
        have vis : row = i.val → b = .none ∨ 2 ≤ i.val := by
          intro h
          by_cases e : b = .none
          · exact .inl e
          · exact .inr (Nat.le_of_not_lt (fun n => shown ⟨e, by show row < 2; omega⟩))
        simp only [Screen.markDirty, Fin.getElem_fin]
        rw [Vector.getElem_setIfInBounds]
        by_cases e : row = i.val
        · rw [if_pos e]
          exact ⟨fun _ => .inr ⟨vis e, e.symm, differs⟩, fun _ => rfl⟩
        · rw [if_neg e]
          exact ⟨.inl, fun h => h.elim id (fun k => absurd k.2.1.symm e)⟩

/-- Cells of one row drawn one after another. -/
theorem Screen.draws_row (b : Banner) (row left : Nat) (f : Nat → Cell) (hr : row < 20) (width : Nat) :
    ∀ c : Screen, left + width ≤ 48 →
      Screen.Draws b (fun i j => i = row ∧ left ≤ j ∧ j < left + width) c
        ((List.range width).foldl (fun c x => c.write b row (left + x) (f x)) c) := by
  induction width with
  | zero => intro c _; exact Screen.Draws.refl b _ c
  | succ n ih =>
    intro c hw
    rw [List.range_succ, List.foldl_append]
    refine ((ih c (by omega)).trans (Screen.draws_write _ b row (left + n) (f n) hr (by omega)) ?_).mono ?_
    · rintro i j ⟨_, _, h⟩ ⟨_, e⟩; omega
    · rintro i j (⟨h, h1, h2⟩ | ⟨h, e⟩) <;> refine ⟨h, ?_, ?_⟩ <;> omega

/-- The cells of a region. -/
def Region.covers (r : Region) (row col : Nat) : Prop :=
  r.top ≤ row ∧ row < r.top + r.height ∧ r.left ≤ col ∧ col < r.left + r.width

/-- A rendering draws into the cells of its region (R175, R180). -/
theorem Screen.draws_render (c : Screen) (b : Banner) (r : Region) (a : Attr) (lines : List (List Byte))
    (hw : r.left + r.width ≤ 48) (hh : r.top + r.height ≤ 20) : Screen.Draws b r.covers c (c.render b r a lines) := by
  have rows : ∀ n, n ≤ r.height → Screen.Draws b
      (fun i j => r.top ≤ i ∧ i < r.top + n ∧ r.left ≤ j ∧ j < r.left + r.width) c
      ((List.range n).foldl (fun c y => (List.range r.width).foldl (fun c x =>
        c.write b (r.top + y) (r.left + x) { ch := (lines.getD y []).getD x 0x20, attr := a }) c) c) := by
    intro n
    induction n with
    | zero => intro _; exact Screen.Draws.refl b _ c
    | succ n ih =>
      intro hn
      rw [List.range_succ, List.foldl_append]
      refine ((ih (by omega)).trans (Screen.draws_row b (r.top + n) r.left
        (fun x => { ch := (lines.getD n []).getD x 0x20, attr := a }) (by omega) r.width _ hw) ?_).mono ?_
      · rintro i j ⟨_, h, _⟩ ⟨e, _⟩; omega
      · rintro i j (⟨h1, h2, h3, h4⟩ | ⟨e, h3, h4⟩) <;> refine ⟨?_, ?_, h3, h4⟩ <;> omega
  exact rows r.height (Nat.le_refl _)

/-- The cells that the fields among some regions may be drawn into at an event. -/
def redrawn (old new : State) (l : List (Option Region)) (row col : Nat) : Prop :=
  ∃ r k a, some r ∈ l ∧ r.owner = Owner.auto k a ∧ old.fieldText k ≠ new.fieldText k ∧ r.covers row col

/-- The regions brought up to date one after another, each in its own cells. -/
theorem Screen.draws_refresh (b : Banner) (old new : State) :
    ∀ (l : List (Option Region)) (c : Screen),
      (∀ r, some r ∈ l → r.left + r.width ≤ 48 ∧ r.top + r.height ≤ 20) →
      (l.Pairwise (fun x y => ∀ r q, x = some r → y = some q → r.overlaps q = false)) →
      Screen.Draws b (redrawn old new l) c (l.foldl (fun c r => c.refresh b old new r) c) := by
  intro l
  induction l with
  | nil => intro c _ _; exact Screen.Draws.refl b _ c
  | cons o l ih =>
    intro c place apart
    rw [List.pairwise_cons] at apart
    have tail := ih (c.refresh b old new o) (fun r h => place r (List.mem_cons_of_mem _ h)) apart.2
    have head : Screen.Draws b (redrawn old new [o]) c (c.refresh b old new o) := by
      unfold Screen.refresh
      split
      · rename_i lft t w h k a
        split
        · exact Screen.Draws.refl b _ c
        · rename_i differ
          have p := place ⟨lft, t, w, h, .auto k a⟩ (List.mem_cons_self ..)
          refine (Screen.draws_render c b ⟨lft, t, w, h, .auto k a⟩ a (new.fieldText k) p.1 p.2).mono ?_
          exact fun row col cov => ⟨_, k, a, List.mem_singleton.mpr rfl, rfl, differ, cov⟩
      · exact Screen.Draws.refl b _ c
    refine (head.trans tail ?_).mono ?_
    · rintro row col ⟨r, _, _, hr, _, _, cr⟩ ⟨q, _, _, hq, _, _, cq⟩
      have e : o = some r := (List.mem_singleton.mp hr).symm
      have n := apart.1 (some q) hq r q e rfl
      simp only [Region.overlaps, decide_eq_false_iff_not] at n
      obtain ⟨a1, a2, a3, a4⟩ := cr
      obtain ⟨b1, b2, b3, b4⟩ := cq
      exact n ⟨by omega, by omega, by omega, by omega⟩
    · rintro row col (⟨r, k, a, hr, h⟩ | ⟨r, k, a, hr, h⟩)
      · exact ⟨r, k, a, List.mem_cons.mpr (.inl (List.mem_singleton.mp hr)), h⟩
      · exact ⟨r, k, a, List.mem_cons_of_mem _ hr, h⟩

/-- A region in the list of regions has an index. -/
theorem Screen.mem_regions (c : Screen) (r : Region) : some r ∈ c.regions.toList ↔ ∃ i, c.region? i = some r := by
  rw [List.mem_iff_getElem?]
  refine exists_congr (fun i => ?_)
  show _ ↔ c.regions[i]?.join = some r
  rw [Vector.getElem?_toList]
  cases c.regions[i]? with
  | none => simp
  | some o => simp

/-- The dirty set after a change of the banner (R180). -/
theorem Screen.dirty_banner (c : Screen) (row : Fin 20) :
    ((c.markDirty 0).markDirty 1).dirty[row] = true ↔ c.dirty[row] = true ∨ row.val < 2 := by
  simp only [Screen.markDirty, Fin.getElem_fin]
  rw [Vector.getElem_setIfInBounds, Vector.getElem_setIfInBounds]
  by_cases h1 : 1 = row.val
  · rw [if_pos h1]; exact ⟨fun _ => .inr (by omega), fun _ => rfl⟩
  · rw [if_neg h1]
    by_cases h0 : 0 = row.val
    · rw [if_pos h0]; exact ⟨fun _ => .inr (by omega), fun _ => rfl⟩
    · rw [if_neg h0]; exact ⟨.inl, fun h => h.elim id (fun k => by omega)⟩

/-- What bringing the screen up to date does (R175, R180), with the regions apart and on the panel. -/
theorem State.draws_redraw (old new : State) (law : new.regionLaw) :
    Screen.Draws new.hold.banner (redrawn old new new.screen.regions.toList)
      (if old.hold.banner = new.hold.banner then new.screen else (new.screen.markDirty 0).markDirty 1) (old.redraw new) := by
  refine Screen.draws_refresh _ old new _ _ ?_ ?_
  · intro r h
    obtain ⟨i, h⟩ := (new.screen.mem_regions r).mp h
    exact ⟨(law.1 i r h).2.2.1, (law.1 i r h).2.2.2⟩
  · rw [List.pairwise_iff_getElem]
    intro i j hi hj lt r q er eq
    have at? : ∀ (n : Nat) (hn : n < new.screen.regions.toList.length) (x : Region),
        new.screen.regions.toList[n] = some x → new.screen.region? n = some x := by
      intro n hn x e
      show new.screen.regions[n]?.join = some x
      rw [← Vector.getElem?_toList, List.getElem?_eq_getElem hn, e]
      rfl
    exact law.2 i j r q (by omega) (at? i hi r er) (at? j hj q eq)

/-- The dirty set of the screen brought up to date (R180). -/
theorem State.dirty_redraw (old new : State) (law : new.regionLaw) (row : Fin 20) :
    (old.redraw new).dirty[row] = true ↔
      new.screen.dirty[row] = true ∨ (old.hold.banner ≠ new.hold.banner ∧ row.val < 2)
        ∨ ((new.hold.banner = .none ∨ 2 ≤ row.val)
            ∧ ∃ col, (old.redraw new).cell row.val col ≠ new.screen.cell row.val col) := by
  rw [(State.draws_redraw old new law).dirty row]
  by_cases e : old.hold.banner = new.hold.banner
  · rw [if_pos e]
    exact ⟨fun h => h.elim .inl (fun k => .inr (.inr k)),
      fun h => h.elim .inl (fun k => k.elim (fun x => absurd e x.1) .inr)⟩
  · rw [if_neg e, Screen.dirty_banner]
    constructor
    · rintro ((h | h) | h)
      · exact .inl h
      · exact .inr (.inl ⟨e, h⟩)
      · exact .inr (.inr h)
    · rintro (h | h | h)
      · exact .inl (.inl h)
      · exact .inl (.inr h.2)
      · exact .inr h

/-- The lowest row of a dirty set. -/
theorem Screen.lowestDirty_eq (c : Screen) (row : Fin 20) (h : c.dirty[row] = true)
    (low : ∀ r : Fin 20, r < row → c.dirty[r] = false) : c.lowestDirty = some row.val := by
  unfold Screen.lowestDirty
  rw [List.find?_range_eq_some]
  refine ⟨?_, by exact List.mem_range.mpr row.isLt, ?_⟩
  · simp [Vector.getElem?_eq_getElem row.isLt]
    exact h
  · intro j hj
    have k : j < 20 := by omega
    simp [Vector.getElem?_eq_getElem k]
    exact low ⟨j, k⟩ hj

/-- No row dirty. -/
theorem Screen.lowestDirty_none (c : Screen) (h : ∀ r : Fin 20, c.dirty[r] = false) : c.lowestDirty = none := by
  unfold Screen.lowestDirty
  rw [List.find?_eq_none]
  intro j hj
  have k : j < 20 := List.mem_range.mp hj
  simp [Vector.getElem?_eq_getElem k]
  exact h ⟨j, k⟩

/-- A transfer started with nothing in the transmitter: the select byte is in the shift byte (R181). -/
theorem Screen.startRow_empty (c : Screen) (b : Banner) (row : Nat) (hs : c.shift = none) (hh : c.holding = none) :
    c.startRow b row = { c with
      dirty := c.dirty.setIfInBounds row false
      shift := some (b8 (0x80 + row))
      holding := (c.rowBytes b row)[1]?
      tx := some { row := row, rest := (c.rowBytes b row).drop 2 } } := by
  cases c
  cases hs
  cases hh
  rfl

/-- A transfer started while a last byte is going out: the select byte is in the holding byte (R181). -/
theorem Screen.startRow_behind (c : Screen) (b : Banner) (row : Nat) (x : Byte) (hs : c.shift = some x) (hh : c.holding = none) :
    c.startRow b row = { c with
      dirty := c.dirty.setIfInBounds row false
      holding := some (b8 (0x80 + row))
      tx := some { row := row, rest := (c.rowBytes b row).drop 1 } } := by
  cases c
  cases hs
  cases hh
  rfl

end Sys2Proof.Machine
end

