-- ==== Sys2Proof/Tests/Slice0.lean ====
section
/-! SUPPORT. Tests: the checks of WellFormed on ill-formed terms, and for each statement of Obligations.lean that has
hypotheses, operands and a state that meet those of each clause, at the ends of their ranges, with what the command answers
there. -/

set_option Elab.async false

namespace Sys2Proof.Tests

open Sys2Proof.Machine

/-! ### Helpers -/

/-- The state that a command leaves. -/
def after (i : Instr) (s : State) : State :=
  match exec i s with
  | .next t => t
  | _ => s

/-- The command goes on to a next state. -/
def goesOn (i : Instr) (s : State) : Bool :=
  match exec i s with
  | .next _ => true
  | _ => false

/-- The command stops because its term is not well formed. -/
def faults (i : Instr) (s : State) : Bool :=
  match exec i s with
  | .fault .illFormed => true
  | _ => false

/-- The response bytes that a command loads on its port. -/
def reply (i : Instr) (s : State) : List Byte :=
  match ((after i s).port (portOf i)).framing with
  | .response bs => bs
  | _ => []

/-- The notices in the queue of a port after a command. -/
def notices (i : Instr) (p : PortId) (s : State) : List Notice := ((after i s).port p).queue

/-- The framing of a port replaced. -/
def framed (p : PortId) (f : Framing) (s : State) : State := s.setPort p { s.port p with framing := f }

/-- The part after reset. -/
def z : State := State.reset

/-- A program of two units of two wires: wire 0 of tier 0, wire 1 of tier 1 and pull-eligible. -/
def prog : Program :=
  { state := .inUse, label := 0x1234, units := 2, pitch := 5000, wires := 2, tiers := 2, exportRequired := true,
    table := [{ tier := 0, x := 100, limitSet := 0, profile := 0, pullEligible := false },
              { tier := 1, x := 200, limitSet := 15, profile := 63, pullEligible := true }] }

/-- A strip bound to slot 0. -/
def strip : StripRecord :=
  { serial := 0x7, source := 49, binding := .bound 0, skipMask := some (Vector.replicate 8 0), sampled := some false,
    outcomes := none, pull := none }

/-- A program in a slot. -/
def stored (slot : Nat) (p : Program) (s : State) : State := s.setProgram slot (some p)

/-- The zone holds the strip, with its map, and issue is enabled. -/
def cell : State :=
  let s := stored 0 prog z
  { s with
    map := some (prog.freshMap 0 0x7)
    tracker := { s.tracker with zone := some strip }
    hold := { s.hold with enable := true } }

/-- A feed that runs without end, depth 1, delivery PULL. -/
def running : Feed := { Feed.reset with state := .running, depth := 1 }

/-- The cell with feed A running. -/
def fed : State := cell.setFeed .a running

/-- The ticket of the first slot. -/
def ticket : Ticket := { number := 255, unit := 0, wire := 0, tier := 0, x := 100, absX := 100, limitSet := 0, profile := 0 }

/-- Head A holds the ticket; its slot is ISSUED. -/
def issued : State :=
  { cell.setFeed .a { running with tickets := [ticket], nextNumber := 0 } with
    map := some ((prog.freshMap 0 0x7).request 0 0 (requestIssue .a 255)) }

/-- A judged ball. -/
def ballResult : BondResult := { verdict := .good, cause := .none, DEF := 1, USI := 2, DUR := 3 }

/-- Head A holds the ticket; its slot is FIRST. -/
def first : State :=
  { issued with
    map := some (((prog.freshMap 0 0x7).request 0 0 (requestIssue .a 255)).request 0 0 (requestBall .a 255 ballResult)) }

/-- The ticket is armed. -/
def armed (ph : Phase) (s : State) : State := s.setCapture .a { s.capture .a with armed := some ⟨ticket, ph⟩ }

/-- A window capture with one value of each channel. -/
def window (b : Binding) : Window :=
  { Window.opening b true true false with
    z := { CapturePart.opening true false with n := 1 }
    us := { CapturePart.opening true false with n := 1 }
    z0 := some 0
    zmin := some 0 }

/-- WIN is high with a capture open. -/
def opened (b : Binding) (s : State) : State :=
  s.setCapture .a { s.capture .a with window := some (window b), win := true }

/-- The clamp state replaced. -/
def clamped (c : Clamp) (s : State) : State := { s with tracker := { s.tracker with clamp := c } }

/-- A pull record. -/
def record (id : Nat) (st : RecordState) : PullRecord :=
  { id := id, serial := 0x7, unit := 1, wire := 1, head := .b, ballVerdict := .good, ballDEF := 1, stitchVerdict := .marginal,
    stitchDEF := 2, limitSet := 15, state := st }

/-- A state with records in the store, P-F enabled, and a strip at PULL with one record outstanding. -/
def pulling (rs : List PullRecord) (c : Option PullCapture) : State :=
  { z.setChan .pf { z.chan .pf with enabled := true } with
    pull := { z.pull with records := rs, capture := c }
    tracker := { z.tracker with
      pull := some { strip with pull := some { state := .opened, outstanding := 1, passed := 0, failed := 0 } } } }

/-- A state with both magazines and a strip at FEED, ZONE and PULL as told. -/
def racks (input : List InSlot) (output : List OutSlot) (f zn pl : Option StripRecord) : State :=
  { z with tracker :=
    { input := some ⟨0x0102, input⟩, output := some ⟨0x0304, output⟩, feed := f, zone := zn, pull := pl, clamp := .none } }

/-- A state whose zone holds a strip that waits for a program. -/
def waiting : State := { z with tracker := { z.tracker with zone := some { strip with binding := .waiting } } }

/-- A state with hold reasons, a code and the level of HOLDIN. -/
def held (r : Reasons) (code : W16) (holdin : Bool) : State :=
  { z with hold := { reasons := r, enable := false, code := code, holdin := holdin } }

/-- The cell with another map. -/
def mapped (f : StripMap → StripMap) (s : State) : State := { s with map := s.map.map f }

/-! ### Ill-formed terms and words -/

theorem test_illFormed_refused :
    (Instr.unknownCommand .cc 0x3F).wellFormed = false ∧ (Instr.unknownCommand .cc 0x40).wellFormed = false
      ∧ (Instr.unknownCommand .cc 0x00).wellFormed = true ∧ (Instr.commandByte .ha .next).wellFormed = false
      ∧ (Instr.commandByte .ha .run).wellFormed = true ∧ (Instr.commandByte .ha .pwire).wellFormed = true
      ∧ (Instr.selectRelease .mh 8).wellFormed = false ∧ (Instr.selectRelease .mh 7).wellFormed = true := by
  decide +kernel

theorem test_illFormed_faults :
    faults (.unknownCommand .cc 0x3F) z = true ∧ faults (.commandByte .ha .next) z = true
      ∧ faults (.selectRelease .mh 8) z = true ∧ goesOn (.selectRelease .mh 7) z = true := by decide +kernel

theorem test_no_word_spells_a_command : decodeTableWord 8 0x10 = none ∧ z.withFetchWord 8 0x10 = z := ⟨rfl, rfl⟩

theorem test_hears : ∀ p : PortId, z.hears p := by intro p; cases p <;> rfl

/-! ### The queue, RST and the ports -/

theorem test_StepTakesFrontCommand :
    step { z with pending := [.holdinActive, .rst ⟨true, true, true, true, true, true, true, true⟩] }
      = .next { after .holdinActive z with pending := [.rst ⟨true, true, true, true, true, true, true, true⟩] } := rfl

theorem test_EventEndAndRendering :
    z.hold.banner = z.hold.banner ∧ (∀ k, z.fieldText k = z.fieldText k) ∧ z.hold.banner ≠ cell.hold.banner
      ∧ cell.screen.pnlrdy = false ∧ (z.finish cell).screen.dirty[1] = true ∧ 46 + 2 ≤ 48 ∧ 19 + 1 ≤ 20
      ∧ (z.screen.render .none { left := 46, top := 19, width := 2, height := 1, owner := .port .cc } .plain [[0x41]]).cell
          19 46 = { ch := 0x41, attr := .plain }
      ∧ (z.screen.render .none { left := 46, top := 19, width := 2, height := 1, owner := .port .cc } .plain [[0x41]]).cell
          19 47 = { ch := 0x20, attr := .plain } := by
  refine ⟨rfl, fun _ => rfl, ?_⟩
  decide +kernel

/-- The automatic field PULL, on the last row, at the right edge. -/
def auto : State := after (.rgdef .cc 7 4 4 28 19 20 1 15) z

/-- Its region. -/
def autoRegion : Region := { left := 28, top := 19, width := 20, height := 1, owner := .auto .pull { colour := 7, blink := true } }

theorem test_auto_region (i : Nat) : auto.screen.region? i = if i = 7 then some autoRegion else none := by
  match i with
  | 0 | 1 | 2 | 3 | 4 | 5 | 6 | 7 => decide +kernel
  | k + 8 => simp [Screen.region?]

/-- The regions of a state with the automatic field are apart. -/
theorem test_auto_regionLaw : auto.regionLaw := by
  constructor
  · intro i r h
    rw [test_auto_region] at h
    split at h
    · obtain rfl := Option.some.inj h; decide
    · exact nomatch h
  · intro i j r q n h h'
    rw [test_auto_region] at h h'
    split at h
    · rename_i first
      split at h'
      · rename_i second
        exact absurd (first.trans second.symm) n
      · exact nomatch h'
    · exact nomatch h

/-- The automatic field shows its text. -/
theorem test_auto_shows : ∀ i r k a, auto.screen.region? i = some r → r.owner = .auto k a →
    ∀ y x, y < r.height → x < r.width → auto.screen.cell (r.top + y) (r.left + x)
      = { ch := (((auto.fieldText k)[y]?.getD [])[x]?).getD 0x20, attr := a } := by
  intro i r k a h o
  rw [test_auto_region] at h
  split at h
  · obtain rfl := Option.some.inj h
    injection (show Owner.auto .pull { colour := 7, blink := true } = .auto k a from o) with hk ha
    subst hk ha
    have all : ∀ y, y < 1 → ∀ x, x < 20 → auto.screen.cell (19 + y) (28 + x)
        = { ch := (((auto.fieldText .pull)[y]?.getD [])[x]?).getD 0x20, attr := { colour := 7, blink := true } } := by
      decide +kernel
    exact fun y x hy hx => all y hy x hx
  · exact nomatch h

/-- A text of the screen, without the spaces that fill it. -/
def read (s : State) (row col width : Nat) : String :=
  String.ofList (((List.range width).map (fun x => Char.ofNat (s.screen.displayed s.hold.banner row (col + x)).ch.toNat)))

theorem test_field_texts :
    (10 : Nat) ^ 10 - 1 < 10 ^ 10 ∧ decimal (10 ^ 10 - 1) = List.replicate 10 0x39 ∧ decimal 0 = [0x30]
      ∧ hex8 0x00C41B20 = [0x30, 0x30, 0x43, 0x34, 0x31, 0x42, 0x32, 0x30]
      ∧ read auto 19 28 20 = "PULL OFF Q0 F0      "
      ∧ read (after (.splan .cc 255 1 0 (Vector.replicate 8 0)) auto) 19 28 20 = "PULL P255 Q0 F0     "
      ∧ auto.fieldText .progress = [textOf "NO STRIP", []]
      ∧ (stored 0 prog waiting).fieldText .progress = [textOf "STRIP 00000007 WAIT", textOf "NO PROGRAM"]
      ∧ cell.fieldText .progress = [textOf "STRIP 00000007 P0", textOf "DONE 0/4 U 0/2"]
      ∧ issued.fieldText .headA = [textOf "HEAD A RUN L1", textOf "LAST NONE"]
      ∧ (racks [.full, .fed] [.blocked, .empty] (some strip) none (some strip)).fieldText .magazine
          = [textOf "IN 1/2 POS F-P", textOf "OUT 0/2 FREE 1"]
      ∧ z.hold.reasons = .empty ∧ z.hold.enable = false ∧ read z 0 0 22 = "READY - RUN TO RESUME "
      ∧ (held ⟨true, true, true, true⟩ 0 true).hold.reasons ≠ .empty
      ∧ read (held ⟨true, false, true, false⟩ 0 false) 0 0 31 = "CELL HELD: OPERATOR PULL_FAIL  "
      ∧ read (held ⟨true, false, true, false⟩ 0 false) 1 7 41 = "TICKETS - RELEASE AND RUN TO RESUME      "
      ∧ cell.hold.enable = true ∧ cell.screen.displayed cell.hold.banner 1 47 = Cell.blank := by decide +kernel

theorem test_RstReadsTheLines :
    ((after (.rst ⟨false, false, true, false, true, false, false, true⟩) fed).capture .a).win = true
      ∧ (after (.rst ⟨true, true, true, false, true, false, false, true⟩) fed).hold.reasons.line = true
      ∧ (after (.rst ⟨true, true, true, false, true, false, false, true⟩) fed).screen.shift = some 0x80
      ∧ ((after (.rst ⟨true, true, true, false, true, false, false, true⟩) fed).port .mh).ignoring = true := by
  decide +kernel

theorem test_PortTakesItsOwnCommands :
    (Instr.pfree .ha 0).command? = some (.ha, .pfree) ∧ PortId.accepts .ha .pfree = false
      ∧ reply (.pfree .ha 0) z = [0x02, 0x00]
      ∧ ((z.setPort .ha { z.port .ha with ignoring := true }).port .ha).ignoring = true
      ∧ (Instr.hstat .ha).command? = some (.ha, .hstat)
      ∧ reply (.hstat .ha) (z.setPort .ha { z.port .ha with ignoring := true }) = [] := by decide +kernel

theorem test_CommandBytesEndAndBegin :
    (framed .cc (.params .guard []) z).hears .cc
      ∧ ((framed .cc (.params .guard [0x1F]) z).port .cc).framing = .params .guard [0x1F]
      ∧ ([0x1F] : List Byte).isPrefixOf [0x1F, 0x40] = true ∧ ([0x1F] : List Byte).length < ([0x1F, 0x40] : List Byte).length
      ∧ ¬(([0x1E] : List Byte).isPrefixOf [0x1F, 0x40] = true)
      ∧ (((framed .cc (.params .guard [0x1E]) z).port .cc).atTaking .guard [0x1F, 0x40]).previous = .format
      ∧ Cmd.takenAtOnce .guard = false ∧ Cmd.ofCode 0x00 = none ∧ Cmd.ofCode 0xFF = none
      ∧ ((after (.commandByte .ha .pwire) z).port .ha).framing = .ignore
      ∧ ((after (.unknownCommand .ha 0xFF) z).port .ha).framing = .response [0x01, 0x00] := by
  refine ⟨rfl, ?_⟩
  decide +kernel

theorem test_ReadoutAndSelect :
    (framed .ha (.response [0x05]) z).hears .ha
      ∧ ((framed .ha (.response [0x05]) z).port .ha).framing = .response (0x05 :: [])
      ∧ ((after (.readoutByte .ha 0x00) (framed .ha (.response [0x05]) z)).port .ha).dataOut = 0x05
      ∧ ((after (.readoutByte .ha 0x00) (framed .ha (.response []) z)).port .ha).dataOut = 0x00
      ∧ ((after (.readoutByte .ha 0x00) (framed .ha .ignore z)).port .ha).framing = .ignore
      ∧ ((after (.readoutByte .ha 0x00) (framed .ha .waiting z)).port .ha).dataOut = 0xFF
      ∧ 7 ≤ 7 ∧ ((after (.selectRelease .ha 7) z).port .ha).unfinished = none := by
  refine ⟨rfl, ?_⟩
  decide +kernel

/-- Clock edges with the bits of a byte, the most significant first. -/
def clocked (p : PortId) (n : Nat) (d : Byte) (mode : Bool) (s : State) : State :=
  (List.range n).foldl (fun t k => t.clockEdge p (d.getLsbD (7 - k)) (mode && k == 7)) s

theorem test_clock_edges :
    z.hears .ha ∧ (z.port .ha).unfinished = none ∧ Cmd.ofCode 0x14 = some .cancel ∧ Cmd.takenAtOnce .cancel = false
      ∧ Cmd.ofCode 0x11 = some .halt ∧ Cmd.takenAtOnce .halt = true ∧ (Instr.halt .ha).command? = some (.ha, .halt)
      ∧ ((clocked .ha 8 0x14 false z).port .ha).framing = .params .cancel []
      ∧ ((clocked .ha 8 0x11 false z).port .ha).framing = .response [0, 0, 0]
      ∧ ((clocked .ha 8 0xFF false z).port .ha).framing = .response [1, 0]
      ∧ ((clocked .ha 8 0x81 true (framed .ha (.params .claim [7]) z)).port .ha).framing = .params .claim [7, 0x81]
      ∧ ((clocked .ha 7 0x81 false z).port .ha).unfinished = some ⟨[true, false, false, false, false, false, false], false⟩
      ∧ ((clocked .ha 1 0x81 true (framed .ha (.response [0x05, 0]) z)).port .ha).dataOut = 0x05
      ∧ ((clocked .ha 1 0x81 true (framed .ha (.response [0x05, 0]) z)).port .ha).dataOutLevel 7 = true
      ∧ (let late := framed .ha (.response [0x05, 0]) (clocked .ha 7 0 true (framed .ha .waiting z))
         (late.port .ha).unfinished = some ⟨List.replicate 7 false, false⟩
          ∧ ((late.clockEdge .ha false true).port .ha).framing = .response [0x05, 0]
          ∧ ((late.clockEdge .ha true false).port .ha).dataOut = 0xFF)
      ∧ (let ignoring := z.setPort .ha { z.port .ha with ignoring := true }
         ignoring.clockEdge .ha true true = ignoring) := by
  refine ⟨rfl, ?_⟩
  decide +kernel

theorem test_RowIsItsBytes :
    (framed .cc (.params .guard [0x1F]) z).hears .cc ∧ (Instr.guard .cc 0x1F40).command? = some (.cc, .guard)
      ∧ Cmd.paramCount .guard ≠ 0
      ∧ ((framed .cc (.params .guard [0x1F]) z).port .cc).framing = .params .guard [0x1F]
      ∧ ([0x1F] : List Byte).isPrefixOf (paramBytes (.guard .cc 0x1F40)) = true
      ∧ ([0x1F] : List Byte).length < (paramBytes (.guard .cc 0x1F40)).length
      ∧ reply (.guard .cc 0x1F40) (framed .cc (.params .guard [0x1F]) z) = [0x00, 0x00, 0x1F, 0x40] := by
  refine ⟨rfl, ?_⟩
  decide +kernel

theorem test_StatReportsThePort :
    z.hears .mh ∧ reply (.stat .mh) z = [0x00, 0x00, 3, 0, 0, 0, 0, 0, 0, 0]
      ∧ reply (.stat .ha) issued = [0x00, 0x00, 0, 0, 0, 0, 0, 1, 1, 1] := by
  refine ⟨rfl, ?_⟩
  decide +kernel

theorem test_NoteRemovesTheOldest :
    z.hears .ha ∧ (0 : Byte).toNat < 1 ∧ 16 < (17 : Byte).toNat ∧ reply (.note .ha 0) z = [0x04, 0x00]
      ∧ reply (.note .ha 17) z = [0x04, 0x00] ∧ 1 ≤ (1 : Byte).toNat ∧ (16 : Byte).toNat ≤ 16
      ∧ (reply (.note .ha 16) (z.post .ha (.runEnd 1))).length = 2 + 128
      ∧ ((after (.note .ha 1) (z.post .ha (.runEnd 1))).port .ha).queue = [] := by
  refine ⟨rfl, ?_⟩
  decide +kernel

/-- A state whose queue at a port holds some notices. -/
def full (n : Nat) : State := z.setPort .ha { z.port .ha with queue := List.replicate n (.runEnd 1) }

theorem test_PostingFillsTheQueue :
    ((full 15).port .ha).queue.length < 16 ∧ 16 ≤ ((full 16).port .ha).queue.length
      ∧ (((full 15).post .ha (.runEnd 4)).port .ha).queue.length = 16
      ∧ (((full 16).post .ha (.runEnd 4)).port .ha).lost = true := by decide +kernel

theorem test_RestartDiscardsTheWork :
    issued.hears .cc ∧ reply (.restart .cc) issued = [0x00, 0x00] ∧ (after (.restart .cc) issued).map = none
      ∧ (after (.restart .cc) issued).hold.reasons.restart = true
      ∧ ((after (.restart .cc) (opened (.bound ticket .ball) issued)).capture .a).window = some .silenced := by
  refine ⟨rfl, ?_⟩
  decide +kernel

/-! ### Programs, limit sets and the map -/

theorem test_PloadLoadsTheHeader :
    z.hears .cc ∧ 3 < (4 : Byte).toNat ∧ reply (.pload .cc 4 0 1 1 1 1 0) z = [0x04, 0x00]
      ∧ ((stored 3 prog z).program? 3).map Program.state = some .inUse
      ∧ reply (.pload .cc 3 0 1 1 1 1 0) (stored 3 prog z) = [0x0A, 0x00]
      ∧ (z.program? 3).map Program.state ≠ some .inUse ∧ reply (.pload .cc 3 0 65 1 1 1 0) z = [0x04, 0x00]
      ∧ (21 : Byte).toNat * (384 : W16).toNat ≤ 8192 ∧ reply (.pload .cc 3 0 21 1 384 4 1) z = [0x00, 0x00]
      ∧ reply (.pload .cc 3 0 22 1 384 4 1) z = [0x04, 0x00] := by
  refine ⟨rfl, ?_⟩
  decide +kernel

theorem test_PfreeEmptiesTheSlot :
    z.hears .cc ∧ 3 < (4 : Byte).toNat ∧ reply (.pfree .cc 4) z = [0x04, 0x00]
      ∧ ((stored 3 prog z).program? 3).map Program.state = some .inUse
      ∧ reply (.pfree .cc 3) (stored 3 prog z) = [0x0A, 0x00] ∧ (z.program? 3).map Program.state ≠ some .inUse
      ∧ reply (.pfree .cc 3) z = [0x00, 0x00, 0, 0, 0]
      ∧ reply (.pfree .cc 3) (stored 3 { prog with state := .ready } z) = [0x00, 0x00, 2, 0x12, 0x34] := by
  refine ⟨rfl, ?_⟩
  decide +kernel

theorem test_PselSelectsAndBinds :
    z.hears .cc ∧ 4 ≤ (4 : Byte).toNat ∧ (254 : Byte).toNat ≤ 254 ∧ reply (.psel .cc 254) z = [0x04, 0x00]
      ∧ (255 : Byte).toNat = 255 ∧ reply (.psel .cc 255) z = [0x00, 0x00]
      ∧ z.program? 3 = none ∧ reply (.psel .cc 3) z = [0x05, 0x00, 0, 0, 0, 0, 0]
      ∧ reply (.psel .cc 3) (stored 3 { prog with state := .loading } z) = [0x05, 0x00, 1, 0x12, 0x34, 0, 2]
      ∧ reply (.psel .cc 3) (stored 3 { prog with state := .ready } z) = [0x00, 0x00, 2, 0x12, 0x34, 0, 2]
      ∧ waiting.tracker.zone.map StripRecord.binding = some .waiting
      ∧ reply (.psel .cc 3) (stored 3 { prog with state := .ready } waiting) = [0x00, 0x01, 2, 0x12, 0x34, 0, 2]
      ∧ (after (.psel .cc 3) (stored 3 { prog with state := .ready } waiting)).map.isSome = true := by
  refine ⟨rfl, ?_⟩
  decide +kernel

/-- Parameters of one phase at the ends of their ranges. -/
def words (durMax : W16) : PhaseWords :=
  { defLo := 5, defHi := 5, mDef := 0, usiLo := 0, usiHi := 0xFFFF, mUsi := 0, durMin := durMax, durMax := durMax }

theorem test_LimsetReplacesTheSet :
    z.hears .cc ∧ reply (.limset .cc 16 (words 4095) (words 4095) 0) z = [0x04, 0x00]
      ∧ reply (.limset .cc 15 (words 4096) (words 4095) 0) z = [0x04, 0x00]
      ∧ (15 : Byte).toNat ≤ 15 ∧ (words 4095).durMax.toNat ≤ 4095
      ∧ reply (.limset .cc 15 (words 4095) (words 4095) 9) z = [0x00, 0x00]
      ∧ ((after (.limset .cc 15 (words 4095) (words 4095) 9) z).limitSet 15).pullMin = 9 := by
  refine ⟨rfl, ?_⟩
  decide +kernel

/-- The port CC takes groups into slot 3, which holds a program with some entries, and has received a byte of one. -/
def groups (n : Nat) : State :=
  framed .cc (.pwireGroups 3 [1]) (stored 3 { prog with state := .loading, table := prog.table.take n } z)

theorem test_PwireTakesGroups :
    (groups 1).hears .cc ∧ ((after (.pwire .cc 4) z).port .cc).previous = .range
      ∧ ((after (.pwire .cc 3) z).port .cc).previous = .state
      ∧ ((after (.pwire .cc 3) (stored 3 prog z)).port .cc).framing = .pwireGroups 3 []
      ∧ ([1] : List Byte).isPrefixOf (paramBytes (.pwireGroup .cc 1 9 15 63 1)) = true
      ∧ ((groups 1).program? 3).map (fun p => p.table.length) = some 1
      ∧ ((after (.pwireGroup .cc 1 9 15 64 1) (groups 1)).port .cc).previous = .range
      ∧ ((after (.pwireGroup .cc 1 9 15 63 1) (groups 2)).port .cc).previous = .full
      ∧ ((after (.pwireGroup .cc 1 9 15 63 1) (groups 1)).program? 3).map Program.state = some .ready
      ∧ ((after (.pwireGroup .cc 1 9 15 63 1) (groups 0)).program? 3).map Program.state = some .loading := by
  refine ⟨rfl, ?_⟩
  decide +kernel

theorem test_MapBuildLaysOutTheMap :
    (∀ u, u < prog.units → flagOf (Vector.replicate 8 (0 : Byte)).toList u = false) ∧ z.pull.period = 0 ∧ 0 < prog.units
      ∧ (z.buildMap 0 prog strip).map.map StripMap.totals = some ⟨4, 0, 0, 0, 0⟩ := by decide +kernel

/-- A sampling plan whose turn has come. -/
def planned (units : List Nat) : State := { z with pull := { z.pull with period := 2, counter := 1, limit := 1, units := units } }

/-- A strip whose mask skips the units of the first byte's flags. -/
def masked (flags : Byte) : StripRecord := { strip with skipMask := some ((Vector.replicate 8 0).set 0 flags) }

theorem test_a_masked_and_sampled_build :
    prog.table.length = prog.wires
      ∧ ((planned [0, 63, 1]).buildMap 0 prog (masked 1)).map.map StripMap.totals = some ⟨2, 0, 0, 0, 2⟩
      ∧ ((planned [0, 63, 1]).buildMap 0 prog (masked 1)).pull.selection = [⟨1, 1, none⟩]
      ∧ ((planned [0, 63, 1]).buildMap 0 prog (masked 1)).pull.counter = 0
      ∧ (((planned [0, 63, 1]).buildMap 0 prog (masked 1)).map.bind (fun m => m.slot? 1 1)) = some ⟨.opened, true⟩
      ∧ (((planned [0, 63, 1]).buildMap 0 prog (masked 1)).map.bind (fun m => m.slot? 0 1)) = some ⟨.skipped, false⟩
      ∧ ((z.buildMap 0 prog (masked 3)).port .mh).queue = [.mapComplete 7 0 0]
      ∧ (z.buildMap 0 prog (masked 3)).map.map StripMap.complete = some true := by decide +kernel

theorem test_MapCommandsAnswer :
    cell.hears .cc ∧ z.map = none ∧ reply (.skipu .cc 0) z = [0x05, 1] ∧ reply (.maprd .cc 0 1) z = [0x05, 1]
      ∧ reply (.maptake .cc) z = [0x05, 1] ∧ reply (.skipu .cc 2) cell = [0x04, 0x00]
      ∧ reply (.skipu .cc 1) cell = [0x00, 0x00, 0, 0, 2, 0, 0] ∧ reply (.maprd .cc 0 0) cell = [0x04, 0x00]
      ∧ reply (.maprd .cc 1 2) cell = [0x04, 0x00] ∧ (reply (.maprd .cc 0 2) cell).length = 2 + 2 * 12 + 4 * 20
      ∧ cell.map.map StripMap.complete = some false ∧ reply (.maptake .cc) cell = [0x05, 2]
      ∧ reply (.maptake .cc) { cell with map := cell.map.map (fun m => { m with complete := true }) }
          = [0x00, 0x00, 0, 0, 0, 7, 0, 0, 0, 0] := by
  refine ⟨rfl, ?_⟩
  decide +kernel

/-- The map with the first unit closed by FAIL and a slot of the second FIRST. -/
def worked : State :=
  mapped (fun m => ((m.request 0 0 (requestStitch .a 255 0 { ballResult with verdict := .fail, cause := .time })).request 1 0
    (requestIssue .b 9)).request 1 0 (requestBall .b 9 ballResult)) first

theorem test_skips_and_map_records :
    (worked.map.bind (fun m => m.units[1]?)).map UnitRec.state = some .active
      ∧ reply (.skipu .cc 1) worked = [0x00, 0x00, 0, 0, 1, 0, 1]
      ∧ (((after (.skipu .cc 1) worked).map.bind (fun m => m.units[1]?)).map UnitRec.unclosed) = some [1, 0, 0, 0]
      ∧ (((after (.skipu .cc 1) worked).map.map StripMap.unitsFinished)) = some 0
      ∧ reply (.maprd .cc 0 1) worked = [0x00, 0x00, 0, 0, 0, 0, 0, 0, 0, 0, 0, 1, 0, 0]
          ++ [0, 0, 0, 0xE3, 0, 0x00, 0x34, 0x34, 0, 1, 0, 1, 0, 2, 0, 2, 0, 3, 0, 3]
          ++ ([0, 0, 1, 0x00, 0, 0] ++ List.replicate 14 0)
      ∧ (reply (.maprd .cc 1 1) (after (.skipu .cc 1) worked)).drop 2
          = [1, 29, 0, 0, 0, 0, 0, 0, 0, 0, 0, 1]
          ++ [1, 0, 0, 0x2A, 9, 0, 0, 0, 0, 1, 0, 0, 0, 2, 0, 0, 0, 3, 0, 0]
          ++ ([1, 0, 1, 0x04, 0, 0] ++ List.replicate 14 0) := by decide +kernel

/-- The map of a state. -/
def mapOf (s : State) : StripMap := s.map.getD (prog.freshMap 0 0)

theorem test_SlotTransitionsAndCompletion :
    ((mapOf cell).slot? 1 1).map WireSlot.phase = some .opened
      ∧ ((mapOf issued).slot? 0 0).map WireSlot.phase = some (.issued .a 255)
      ∧ ((mapOf first).slot? 0 0).map WireSlot.phase = some (.first .a 255 ballResult)
      ∧ (mapOf issued).request 0 0 (requestBall .b 255 ballResult) = mapOf issued
      ∧ ((mapOf first).request 0 0 (requestRelease .a 255 0)).totals = ⟨3, 0, 0, 1, 0⟩
      ∧ ((((mapOf issued).skipUnit prog.table 0).request 0 0 (requestRelease .a 255 0)).unitsFinished) = 1
      ∧ (mapOf cell).complete = false ∧ (mapOf cell).unitsFinished ≠ (mapOf cell).units.length
      ∧ (after (.skipu .cc 1) (after (.skipu .cc 0) cell)).map.map StripMap.complete = some true
      ∧ (clamped .requested cell).firstCount + (clamped .requested cell).openBalls = 0
      ∧ (clamped .requested cell).checkClamp.tracker.clamp = .granted
      ∧ (clamped .requested first).firstCount + (clamped .requested first).openBalls ≠ 0 := by decide +kernel

/-- The unit of the first slot, whose wires are all of its tier, after its stitch. -/
def stitched (ball stitch : Verdict) : Option UnitRec :=
  let m := (mapped (fun m => { m with units := m.units.map (fun u => { u with unclosed := [1, 0, 0, 0] }) }) cell).map
  let m := m.map (fun m => ((m.request 0 0 (requestIssue .a 0)).request 0 0 (requestBall .a 0 { ballResult with verdict := ball })).request
    0 0 (requestStitch .a 0 0 { ballResult with verdict := stitch }))
  m.bind (fun m => m.units[0]?)

theorem test_closes_count_and_settle :
    (stitched .good .good).map UnitRec.state = some (.done .good) ∧ (stitched .marginal .good).map UnitRec.marginal = some 1
      ∧ (stitched .marginal .unjudged).map UnitRec.state = some (.done .suspect)
      ∧ (stitched .fail .unjudged).map UnitRec.state = some (.done .reject)
      ∧ (stitched .good .fail).map UnitRec.fail = some 1 := by decide +kernel

/-! ### Feeds and the arbiter -/

theorem test_RunStartsTheFeed :
    z.hears .ha ∧ reply (.run .ha 1 3 0 0 0 1) z = [0x04, 0x00] ∧ reply (.run .ha 1 2 64 0 0 1) z = [0x04, 0x00]
      ∧ reply (.run .ha 1 0 64 0 0 5) z = [0x04, 0x00]
      ∧ reply (.run .ha 1 2 63 1 1 4) (z.setFeed .a { Feed.reset with latch := true }) = [0x05, 3]
      ∧ z.hold.reasons = .empty ∧ z.hold.enable = false ∧ reply (.run .ha 1 2 63 1 1 4) z = [0x00, 1]
      ∧ cell.hold.enable = true ∧ reply (.run .ha 1 0 255 0 0 1) cell = [0x00, 0x00] := by
  refine ⟨rfl, ?_⟩
  decide +kernel

theorem test_HaltHstatGuardClrstop :
    issued.hears .ha ∧ reply (.halt .ha) issued = [0x00, 0x00, 1] ∧ (reply (.hstat .ha) issued).length = 2 + 17 + 13
      ∧ (issued.feed .a).tickets ≠ [] ∧ reply (.guard .cc 0) issued = [0x06, 0x00] ∧ (z.feed .a).tickets = []
      ∧ reply (.guard .cc 0xFFFF) z = [0x00, 0x00, 0x1F, 0x40]
      ∧ 0 < ((z.setChan .aus { Channel.reset with run := 1 }).chan (usChan .a)).run
      ∧ reply (.clrstop .ha) (z.setChan .aus { Channel.reset with run := 1 }) = [0x05, 3, 0, 1]
      ∧ reply (.clrstop .ha) (z.setFeed .a { Feed.reset with latch := true }) = [0x00, 1, 0, 0] := by
  refine ⟨rfl, ?_⟩
  decide +kernel

/-- A request waits at the arbiter with its port WAITING. -/
def asked (r : Request) (s : State) : State := framed .ha .waiting (s.setFeed .a { s.feed .a with request := some r })

theorem test_NextAndClaimWait :
    z.hears .ha ∧ ((asked .next z).feed .a).request ≠ none ∧ reply (.next .ha) (asked .next z) = [0x06, 0x00]
      ∧ reply (.claim .ha 0 0) (asked .next z) = [0x06, 0x00] ∧ (z.feed .a).request = none
      ∧ reply (.next .ha) (z.setFeed .a { Feed.reset with delivery := .push }) = [0x05, 4]
      ∧ (z.feed .a).delivery = .pull ∧ ((after (.next .ha) z).port .ha).framing = .waiting
      ∧ ((after (.claim .ha 63 383) z).feed .a).request = some (.claim 63 383) := by
  refine ⟨rfl, ?_⟩
  decide +kernel

theorem test_ScanAndEligibility :
    cell.eligible (mapOf cell) .a ⟨0, 0⟩ = true ∧ cell.eligible (mapOf cell) .a ⟨0, 1⟩ = false
      ∧ issued.eligible (mapOf issued) .b ⟨1, 0⟩ = false
      ∧ ({ Feed.reset with cursor := some ⟨1, 1⟩ } : Feed).scan 2 2 = [⟨0, 0⟩, ⟨0, 1⟩, ⟨1, 0⟩, ⟨1, 1⟩]
      ∧ ({ Feed.reset with cursor := some ⟨0, 0⟩ } : Feed).scan 2 2 = [⟨0, 1⟩, ⟨1, 0⟩, ⟨1, 1⟩, ⟨0, 0⟩]
      ∧ ({ Feed.reset with cursor := some ⟨0, 1⟩, order := .stride } : Feed).scan 2 2 = [⟨1, 0⟩, ⟨1, 1⟩, ⟨0, 0⟩, ⟨0, 1⟩]
      ∧ List.range 3 = [0] ++ 1 :: [2]
      ∧ ({ Feed.reset with cursor := some ⟨1, 0⟩ } : Feed).scan 3 2 = [⟨1, 1⟩, ⟨2, 0⟩, ⟨2, 1⟩, ⟨0, 0⟩, ⟨0, 1⟩, ⟨1, 0⟩]
      ∧ ({ Feed.reset with cursor := some ⟨0, 0⟩, order := .stride, traversal := .descend } : Feed).scan 3 1
          = [⟨2, 0⟩, ⟨1, 0⟩, ⟨0, 0⟩]
      ∧ 1 ∉ [2] ∧ ({ Feed.reset with cursor := some ⟨1, 0⟩, traversal := .fixed, fixedUnit := 2 } : Feed).scan 3 2
          = [⟨2, 0⟩, ⟨2, 1⟩] := by
  decide +kernel

/-- What the arbiter answers a NEXT or CLAIM of head A. -/
def served (r : Request) (s : State) : List Byte :=
  match ((after .arbiterServe (asked r s)).port .ha).framing with
  | .response bs => bs
  | _ => []

/-- The cell with feed A running and head B holding the ticket of its own for a slot, under a guard distance. -/
def guarded (g : Nat) : State :=
  let s := fed.setFeed .b { Feed.reset with tickets := [{ ticket with number := 0 }] }
  { s with issuer := { s.issuer with guard := g },
           map := some ((mapOf fed).request 0 0 (requestIssue .b 0)) }

theorem test_ArbiterServesNext :
    ((asked .next fed).feed .a).request = some .next ∧ fed.issuer.lastServed = .b
      ∧ served .next (fed.setFeed .a { running with delivery := .push }) = [0x05, 4] ∧ served .next z = [0x0D, 1]
      ∧ served .next (mapped (fun m => { m with complete := true }) fed) = [0x0D, 2]
      ∧ served .next { fed with hold := { fed.hold with enable := false } } = [0x0D, 3]
      ∧ served .next (clamped .requested fed) = [0x0D, 4] ∧ served .next cell = [0x0D, 5]
      ∧ served .next issued = [0x0D, 6] ∧ served .next (guarded 5001) = [0x0D, 7]
      ∧ served .next (guarded 5000) = [0x00, 0x00, 0, 1, 0, 0, 0, 0, 100, 0, 0, 0x13, 0xEC, 0, 0]
      ∧ served .next (mapped (fun m => m.skipUnit prog.table 1) (guarded 0)) = [0x0D, 8]
      ∧ served .next (mapped (fun m => (m.skipUnit prog.table 1).skipUnit prog.table 0) fed) = [0x0D, 9]
      ∧ served .next (fed.setFeed .a { running with count := 1 }) = [0x00, 1, 0, 0, 0, 0, 0, 0, 100, 0, 0, 0, 100, 0, 0] := by
  decide +kernel

theorem test_ticket_numbers :
    ({ running with nextNumber := 255 } : Feed).nextNumber < 256
      ∧ (({ running with tickets := [ticket] } : Feed).tickets.map Ticket.number).length < 256
      ∧ ({ running with tickets := [ticket, { ticket with number := 0 }], nextNumber := 255 } : Feed).pickNumber = 1
      ∧ ({ running with tickets := [ticket], nextNumber := 254 } : Feed).pickNumber = 254
      ∧ ({ z.pull with records := [record 65535 .void, record 0 .void], nextId := 65535 } : PullStore).pickId = 1
      ∧ ({ z.pull with nextId := 65535 } : PullStore).records.length < 128 := by decide +kernel

theorem test_ArbiterServesClaim :
    ((asked (.claim 0 0) cell).feed .a).request = some (.claim 0 0)
      ∧ served (.claim 0 0) z = [0x09, 1] ∧ served (.claim 0 0) (clamped .granted cell) = [0x05, 5]
      ∧ served (.claim 0 0) (cell.setFeed .a { running with tickets := List.replicate 4 ticket }) = [0x0C, 0x00]
      ∧ served (.claim 0 0) { cell with map := none } = [0x04, 0x00] ∧ served (.claim 2 0) cell = [0x04, 0x00]
      ∧ served (.claim 1 2) cell = [0x04, 0x00] ∧ served (.claim 0 0) issued = [0x08, 0x00]
      ∧ served (.claim 0 0) (guarded 0) = [0x09, 2]
      ∧ served (.claim 1 1) (mapped (fun m => m.skipUnit prog.table 1) cell) = [0x05, 6]
      ∧ served (.claim 1 1) cell = [0x05, 7] ∧ served (.claim 1 0) (guarded 5001) = [0x05, 8]
      ∧ served (.claim 1 0) (guarded 5000) = [0x00, 0x00, 0, 1, 0, 0, 0, 0, 100, 0, 0, 0x13, 0xEC, 0, 0] := by
  decide +kernel

/-- The cell with a fill request of feed A. -/
def filling (count : Nat) : State :=
  cell.setFeed .a { running with delivery := .push, fill := true, count := count, depth := 2 }

theorem test_ArbiterServesFill :
    ((filling 1).feed .a).request = none ∧ ((filling 1).feed .a).fill = true ∧ (filling 1).issuer.lastServed = .b
      ∧ ((after .fillServe (clamped .granted (filling 1))).feed .a).fill = false
      ∧ ((after .fillServe (clamped .granted (filling 1))).port .ha).queue = []
      ∧ notices .fillServe .ha (filling 1) = [.ticket 0 0 0 0 0 0, .runEnd 1]
      ∧ notices .fillServe .ha (filling 0) = [.ticket 0 0 0 0 0 0]
      ∧ ((after .fillServe (filling 0)).feed .a).fill = true := by decide +kernel

theorem test_NoIssueWhileHeldOrClamped :
    step { asked .next z with pending := [.arbiterServe] } = .next { after .arbiterServe (asked .next z) with pending := [] }
      ∧ z.hold.enable = false ∧ (clamped .granted fed).tracker.clamp ≠ .none
      ∧ ((after .arbiterServe (asked .next (clamped .granted fed))).feed .a).tickets = [] := by
  refine ⟨rfl, ?_⟩
  decide +kernel

theorem test_CancelAndFreset :
    issued.hears .ha ∧ (∀ t ∈ (issued.feed .a).tickets, t.number ≠ (254 : Byte).toNat)
      ∧ reply (.cancel .ha 254) issued = [0x07, 0x00]
      ∧ (issued.feed .a).tickets.find? (fun t => t.number == (255 : Byte).toNat) = some ticket
      ∧ reply (.cancel .ha 255) issued = [0x00, 0x00, 0, 0, 0, 0] ∧ reply (.cancel .ha 255) first = [0x00, 0x00, 0, 0, 0, 3]
      ∧ ((after (.cancel .ha 255) (armed .ball issued)).capture .a).armed = none
      ∧ (cell.feed .a).tickets = [] ∧ reply (.freset .ha) cell = [0x00, 0x00, 0, 0, 0, 0]
      ∧ reply (.freset .ha) first = [0x00, 0x00, 1, 0, 0, 1] := by
  refine ⟨rfl, ?_⟩
  decide +kernel

/-! ### Links and conditioning -/

theorem test_ChcfgConfigures :
    z.hears .cc ∧ 4 < (5 : Byte).toNat ∧ reply (.chcfg .cc 5 1 1 0 0 0 1 1 8) z = [0x04, 0x00]
      ∧ reply (.chcfg .cc 0 1 33 0 0 0 1 1 8) z = [0x04, 0x00] ∧ reply (.chcfg .cc 3 1 1 0 0 0 0 1 8) z = [0x04, 0x00]
      ∧ reply (.chcfg .cc 0 1 32 15 0x800000 15 8388607 255 1020) (opened .silenced z) = [0x06, 0x00]
      ∧ reply (.chcfg .cc 0 1 32 15 0x800000 15 8388607 255 1017) z = [0x00, 0x00, 0x03, 0xFC, 0]
      ∧ reply (.chcfg .cc 4 1 1 0 0 0 0 0 8) z = [0x00, 0x00, 0, 8, 0]
      ∧ ((after (.chcfg .cc 4 1 1 0 0 0 0 0 9) z).link .slP).timer = some 12
      ∧ reply (.chcfg .cc 4 1 1 0 0 0 0 0 8) (pulling [] (some (.opening false))) = [0x06, 0x00] := by
  refine ⟨rfl, ?_⟩
  decide +kernel

/-- A state whose links' lines are at rest, with a channel enabled and a timer that runs. -/
def listening (present : Bool) : State :=
  (z.setChan .az { Channel.reset with enabled := true, t := 1, n := 1 }).setLink .slA
    { Receiver.reset with atRest := true, present := present, timer := if present then some 8 else none, timeout := 8,
                          selection := .z }

theorem test_WordsReachTheirChannels :
    ((listening true).link .slA).atRest = true ∧ ((listening true).link .slA).present = true
      ∧ ((listening false).link .slA).present = false ∧ (z.link .slA).atRest = false
      ∧ ((after (.addressWord .slA 0x102) (listening true)).link .slA).packing = .pair
      ∧ notices (.addressWord .slA 0x201) .ha (listening false) = [.linkBack .slA .z .split]
      ∧ notices (.dataWord .slA 0) .ha (listening false) = [.linkBack .slA .z .single]
      ∧ ((after (.dataWord .slA 0xFFFF) (listening true)).chan .az).run = 1
      ∧ notices (.dataWord .slA 0xFFFF) .cc (listening true) = [.touch .a false (-1) false]
      ∧ after (.addressWord .slA 0x102) z = z := by
  decide +kernel

theorem test_line_bits :
    let on := fun (bits : List Bool) (s : State) => bits.foldl (fun t level => t.linkBit .slA level) s
    let word := [false, true] ++ List.replicate 7 false ++ [true] ++ List.replicate 6 false ++ [true, false] ++ List.replicate 16 true
    ((listening true).link .slA).atRest = true ∧ ((listening true).link .slA).assembling = []
      ∧ ((on (word ++ [true]) (listening true)).link .slA).packing = .pair
      ∧ ((on (word ++ [true]) (listening true)).link .slA).selection = .us
      ∧ ((on (word ++ [false]) (listening true)).link .slA).atRest = false
      ∧ ((on word (listening true)).link .slA).assembling = word ∧ word.length = 34
      ∧ on [true] (listening true) = listening true ∧ on [false] z = z ∧ ((on [true] z).link .slA).atRest = true := by
  decide +kernel

/-- A channel with a partial group. -/
def sampling (c : ChanId) (d : Nat) : State :=
  z.setChan c { Channel.reset with enabled := true, d := d, count := 1, sum := 3, t := 4, n := 1 }

theorem test_SamplesBecomeValues :
    (z.chan .az).enabled = false ∧ ((sampling .az 3).chan .az).enabled = true ∧ ((sampling .az 3).chan .az).count + 1 < 3
      ∧ (((sampling .az 3).sample .az 1).chan .az).sum = 4 ∧ ((sampling .pf 2).chan .pf).d ≤ ((sampling .pf 2).chan .pf).count + 1
      ∧ ((sampling .pf 2).sample .pf 1).pull.capture = none ∧ ChanId.head? .bus = some .b
      ∧ (((sampling .bus 2).sample .bus 1).feed .b).latch = true ∧ (((sampling .bus 2).sample .bus 0).feed .b).latch = false
      ∧ (((sampling .bus 2).sample .bus 1).port .cc).queue = [.touch .b true 4 false] := by decide +kernel

theorem test_BrokenAndSilentLinks :
    ((listening true).link .slA).timer.isSome = true ∧ (z.link .slP).timer = none
      ∧ ((after (.framingError .slA) (listening true)).link .slA).atRest = false
      ∧ ((after (.framingError .slA) (opened .silenced (listening true))).capture .a).window
          = ((opened .silenced (listening true)).capture .a).window
      ∧ notices (.absenceExpiry .slA) .ha (opened (.bound ticket .ball) (listening true)) = [.linkLost .slA true false]
      ∧ ((after (.absenceExpiry .slA) (listening true)).link .slA).present = false
      ∧ ((after (.lineReturnsToRest .slB) z).link .slB).atRest = true := by decide +kernel

theorem test_RoundingShift :
    (1 : Nat) ≤ 15 ∧ (-1 : Int) * 2 ^ 15 ≤ -16385 + 2 ^ (15 - 1) ∧ (-16385 : Int) + 2 ^ (15 - 1) < (-1 + 1) * 2 ^ 15
      ∧ roundShift 15 (-16385) = -1 ∧ roundShift 15 (-16384) = 0 ∧ roundShift 15 (-32768) = -1 := by decide +kernel

/-- A limit set at given ball ranges. -/
def limits : LimitSet :=
  { loaded := true
    ball := { defLo := 0, defHi := 0, mDef := 0, usiLo := 0, usiHi := 0, mUsi := 0, durMin := 1, durMax := 1 }
    stitch := { defLo := 1, defHi := 2, mDef := 1, usiLo := 0, usiHi := 0, mUsi := 1, durMin := 1, durMax := 1 }
    pullMin := 5 }

theorem test_WindowsAreJudged :
    let w := window .silenced
    let v := fun (w : Window) (l : LimitSet) (ph : Phase) => ((w.judge l ph 0 0).verdict, (w.judge l ph 0 0).cause)
    v { w with z := { w.z with enabledAtOpen := false } } limits .ball = (.unjudged, .disabled)
      ∧ v { w with us := { w.us with framing := true } } limits .ball = (.unjudged, .link)
      ∧ v { w with us := { w.us with n := 0 } } limits .ball = (.unjudged, .noData)
      ∧ v w LimitSet.reset .ball = (.fail, .noLimits) ∧ v { w with z := { w.z with n := 2 } } limits .ball = (.fail, .time)
      ∧ v w limits .stitch = (.fail, .nonstick) ∧ v { w with zmin := some (-3) } limits .stitch = (.fail, .overcrush)
      ∧ v { w with usSum := 1 } limits .ball = (.fail, .usAbnormal)
      ∧ v { w with zmin := some (-1) } limits .stitch = (.marginal, .none) ∧ v w limits .ball = (.good, .none)
      ∧ (window .silenced).z0 = some 0 ∧ ({ w with zmin := some (-9) }.judge limits .ball 3 0).DEF = 1 := by
  decide +kernel

/-! ### Bond Capture -/

theorem test_ArmArmsATicket :
    issued.hears .ha ∧ reply (.arm .ha 254) issued = [0x07, 0x00]
      ∧ (issued.feed .a).tickets.find? (fun t => t.number == (255 : Byte).toNat) = some ticket
      ∧ reply (.arm .ha 255) (opened .silenced issued) = [0x06, 0x00]
      ∧ reply (.arm .ha 254) (opened .silenced issued) = [0x07, 0x00] ∧ reply (.arm .ha 255) (clamped .requested issued) = [0x05, 5]
      ∧ reply (.arm .ha 255) issued = [0x00, 0, 0, 0, 255] ∧ reply (.arm .ha 255) (clamped .granted (armed .stitch first))
          = [0x00, 1, 1, 255, 255] := by
  refine ⟨rfl, ?_⟩
  decide +kernel

theorem test_DisarmClearsTheArmedTicket :
    issued.hears .ha ∧ (issued.capture .a).window = none ∧ ((opened .silenced issued).capture .a).window ≠ none
      ∧ reply (.disarm .ha) (opened .silenced issued) = [0x06, 0x00]
      ∧ ((armed .stitch issued).capture .a).armed = some ⟨ticket, .stitch⟩
      ∧ reply (.disarm .ha) (armed .stitch issued) = [0x00, 0x00, 1, 255, 1]
      ∧ reply (.disarm .ha) issued = [0x00, 0x00, 0, 0, 0] := by
  refine ⟨rfl, ?_⟩
  decide +kernel

/-- The binding of the open window of head A. -/
def binding (s : State) : Option Binding := (s.capture .a).window.map Window.binding

theorem test_WindowsOpen :
    ((opened .silenced z).capture .a).win = true ∧ binding (after (.windowOpen .a) (opened .silenced z)) = some .silenced
      ∧ (z.capture .a).win = false ∧ (z.capture .a).armed = none
      ∧ binding (after (.windowOpen .a) z) = some (.stray .notArmed 0 .ball)
      ∧ binding (after (.windowOpen .a) (clamped .requested (armed .ball issued))) = some (.stray .clamp 255 .ball)
      ∧ binding (after (.windowOpen .a) (clamped .granted (armed .stitch first))) = some (.bound ticket .stitch)
      ∧ binding (after (.windowOpen .a) (armed .ball issued)) = some (.bound ticket .ball) := by decide +kernel

/-- The phase code of the first slot. -/
def phaseCode (s : State) : Option Nat := ((mapOf s).slot? 0 0).map (fun sl => sl.phase.code)

theorem test_WindowsClose :
    (z.capture .a).win = false ∧ goesOn (.windowClose .a) z = true
      ∧ phaseCode (after (.windowClose .a) (opened (.bound ticket .ball) (armed .ball issued))) = some 2
      ∧ (notices (.windowClose .a) .ha (opened (.bound ticket .ball) (armed .ball issued))).length = 2
      ∧ ((after (.windowClose .a) (opened (.bound ticket .ball) (armed .ball issued))).feed .a).state = .stopped .fail
      ∧ phaseCode (after (.windowClose .a) (opened (.bound ticket .stitch) (armed .stitch first))) = some 3
      ∧ ((after (.windowClose .a) (opened (.bound ticket .stitch) (armed .stitch first))).feed .a).tickets = []
      ∧ notices (.windowClose .a) .ha (opened (.stray .clamp 255 .ball) issued) = [.stray .clamp 255 .ball 1]
      ∧ notices (.windowClose .a) .ha (opened .silenced issued) = []
      ∧ ((after (.windowClose .a) (opened .silenced (armed .ball issued))).capture .a).armed = none
      ∧ ((armed .ball (issued.setCapture .a { BondCapture.reset with win := true })).capture .a).window = none
      ∧ (after (.windowClose .a) (armed .ball (issued.setCapture .a { BondCapture.reset with win := true }))).capture .a
          = { BondCapture.reset with armed := some ⟨ticket, .ball⟩ } := by
  decide +kernel

/-! ### Magazines, positions and pulls -/

theorem test_MagazineCommands :
    z.hears .mh ∧ z.hears .cc ∧ 1 < (2 : Byte).toNat ∧ reply (.magld .mh 2 0 1 (Vector.replicate 7 0)) z = [0x04, 0x00]
      ∧ reply (.magld .mh 1 0 1 (Vector.replicate 7 0)) (racks [] [] none none none) = [0x05, 9]
      ∧ reply (.magld .mh 1 0 51 (Vector.replicate 7 0)) z = [0x04, 0x00]
      ∧ reply (.magld .mh 0 0 1 ((Vector.replicate 7 0).set 0 3)) z = [0x04, 0x00]
      ∧ reply (.magld .mh 0 0 50 ((Vector.replicate 7 0xFF).set 6 3)) z = [0x00, 0x00, 50, 0]
      ∧ reply (.magld .mh 1 0 1 ((Vector.replicate 7 0).set 0 1)) z = [0x00, 0x00, 1, 0]
      ∧ reply (.magul .mh 2) z = [0x04, 0x00] ∧ reply (.magul .mh 1) z = [0x05, 10]
      ∧ reply (.magul .mh 0) (racks [.full, .fed] [] none none none) = [0x00, 0x00, 1, 2, 1, 1]
      ∧ reply (.magul .mh 1) (racks [] [.blocked, .empty, .empty] none none none) = [0x00, 0x00, 3, 4, 0, 1, 2]
      ∧ reply (.mgrd .mh 3) z = [0x04, 0x00] ∧ reply (.mgrd .cc 1) z = [0x00, 0x00, 0, 0, 0, 0]
      ∧ reply (.mgrd .cc 0) (racks [.fed] [] none none none) = [0x00, 0x00, 1, 1, 2, 1, 2, 0, 0, 0, 0, 0, 0, 0, 0, 0]
      ∧ (reply (.mgrd .cc 1) (racks [] [.stowed ⟨7, 1, 2, 3, 4, .fail⟩] none none none)).length = 2 + 4 + 10
      ∧ (reply (.mgrd .mh 2) (racks [] [] none none (some strip))).length = 2 + 30 := by
  refine ⟨rfl, rfl, ?_⟩
  decide +kernel

/-- A strip at FEED. -/
def fresh (serial : W32) : StripRecord := .fed serial 0

theorem test_FeedAndZoneMoveTheStrip :
    z.hears .mh ∧ z.tracker.input = none ∧ reply (.feed .mh 0 1) z = [0x05, 10]
      ∧ reply (.feed .mh 2 1) (racks [.full, .fed] [] none none none) = [0x04, 0x00]
      ∧ reply (.feed .mh 1 1) (racks [.full, .fed] [] none none none) = [0x05, 6]
      ∧ reply (.feed .mh 0 1) (racks [.full, .fed] [] (some (fresh 2)) none none) = [0x06, 0x00]
      ∧ reply (.feed .mh 0 7) (racks [.full, .fed] [] none none (some strip)) = [0x08, 0x00]
      ∧ reply (.feed .mh 0 9) (racks [.full] [.stowed ⟨9, 0, 0, 0, 0, .none⟩] none none none) = [0x08, 0x00]
      ∧ reply (.feed .mh 0 1) (racks [.full, .fed] [] none none none) = [0x00, 0x00, 0]
      ∧ reply (.zone .mh (Vector.replicate 8 0)) z = [0x05, 11]
      ∧ reply (.zone .mh (Vector.replicate 8 0)) (racks [] [] (some (fresh 2)) (some strip) none) = [0x06, 0x00]
      ∧ reply (.zone .mh (Vector.replicate 8 0)) (racks [] [] (some (fresh 2)) none none) = [0x00, 0x00, 255, 0, 0, 0]
      ∧ (let s := stored 3 { prog with state := .ready } (racks [] [] (some (fresh 2)) none none)
         reply (.zone .mh ((Vector.replicate 8 0).set 0 2)) { s with programs := { s.programs with selection := some 3 } }
           = [0x00, 1, 3, 2, 1, 0]) := by
  refine ⟨rfl, ?_⟩
  decide +kernel

/-- The cell with its map complete and, if so, exported. -/
def complete (exported : Bool) : State := mapped (fun m => { m with complete := true, exportTaken := exported }) cell

theorem test_ZrelReleasesTheStrip :
    z.hears .mh ∧ reply (.zrel .mh) z = [0x05, 11] ∧ reply (.zrel .mh) waiting = [0x05, 12] ∧ reply (.zrel .mh) cell = [0x05, 2]
      ∧ reply (.zrel .mh) (clamped .granted (complete true)) = [0x05, 5] ∧ reply (.zrel .mh) (complete false) = [0x05, 13]
      ∧ reply (.zrel .mh) { complete true with tracker := { (complete true).tracker with pull := some strip } } = [0x05, 14]
      ∧ reply (.zrel .mh) (complete true) = [0x00, 0x00, 0, 0, 0, 7, 0, 0, 0, 0, 0]
      ∧ (after (.zrel .mh) (complete true)).map = none
      ∧ ((after (.zrel .mh) (complete true)).program? 0).map Program.state = some .ready := by
  refine ⟨rfl, ?_⟩
  decide +kernel

/-- The cell complete with the slot of the first wire closed GOOD by a stitch and in the selection list, with the store almost
full. -/
def releasing (n : Nat) : State :=
  let s := mapped (fun m => { (m.request 0 0 (requestStitch .a 255 0 ballResult)) with complete := true, exportTaken := true }) first
  { s with pull := { s.pull with selection := [⟨0, 0, some .b⟩, ⟨0, 1, none⟩], nextId := 65535,
                                 records := (List.range n).map (fun i => record i .void) } }

theorem test_records_of_a_release :
    (after (.zrel .mh) (releasing 1)).pull.records
        = [record 0 .void, { id := 65535, serial := 7, unit := 0, wire := 0, head := .b, ballVerdict := .good, ballDEF := 1,
                             stitchVerdict := .good, stitchDEF := 1, limitSet := 0, state := .pending }]
      ∧ (after (.zrel .mh) (releasing 1)).pull.nextId = 0 ∧ notices (.zrel .mh) .cc (releasing 128) = [.pullShort 7 1 0]
      ∧ ((after (.zrel .mh) (releasing 127)).tracker.pull.bind StripRecord.pull) = some ⟨.opened, 1, 0, 0⟩ := by decide +kernel

/-- A strip at PULL with a pull status. -/
def pulled (k : PullStatus) : StripRecord := { strip with outcomes := some [.good, .reject], pull := some k }

theorem test_StowFillsASlot :
    z.hears .mh ∧ reply (.stow .mh 0) z = [0x05, 11]
      ∧ reply (.stow .mh 0) { z with tracker := { z.tracker with pull := some strip } } = [0x05, 10]
      ∧ reply (.stow .mh 1) (racks [] [.empty] none none (some (pulled ⟨.closed, 0, 1, 0⟩))) = [0x04, 0x00]
      ∧ reply (.stow .mh 0) (racks [] [.blocked] none none (some (pulled ⟨.closed, 0, 1, 0⟩))) = [0x05, 6]
      ∧ reply (.stow .mh 0) (racks [] [.empty] none none (some (pulled ⟨.opened, 1, 1, 0⟩))) = [0x06, 0x00, 1]
      ∧ reply (.stow .mh 0) (racks [] [.empty] none none (some (pulled ⟨.closed, 0, 1, 1⟩)))
          = [0x00, 0x00, 0, 0, 0, 7, 1, 0, 1, 0, 2, 0]
      ∧ notices (.stow .mh 0) .cc (racks [] [.empty] none none (some (pulled ⟨.closed, 0, 1, 1⟩))) = [.magFull 0x0304 1] := by
  refine ⟨rfl, ?_⟩
  decide +kernel

theorem test_ClampAndCldone :
    z.hears .mh ∧ reply (.clamp .mh) issued = [0x00, 0x00, 0, 0] ∧ reply (.clamp .mh) first = [0x0E, 0x00, 1, 0]
      ∧ reply (.clamp .mh) (opened (.bound ticket .ball) issued) = [0x0E, 0x00, 0, 1]
      ∧ reply (.clamp .mh) (clamped .requested first) = [0x0E, 1, 1, 0] ∧ reply (.clamp .mh) (clamped .granted cell) = [0x00, 1, 0, 0]
      ∧ reply (.cldone .mh) (clamped .granted cell) = [0x00, 2] := by
  refine ⟨rfl, ?_⟩
  decide +kernel

theorem test_SplanAndPtake :
    z.hears .cc ∧ reply (.splan .cc 0 33 0 (Vector.replicate 8 0)) z = [0x04, 0x00]
      ∧ reply (.splan .cc 0 32 1 (Vector.replicate 8 64)) z = [0x04, 0x00]
      ∧ reply (.splan .cc 0 32 2 (Vector.replicate 8 63)) z = [0x08, 0x00]
      ∧ reply (.splan .cc 255 32 1 (Vector.replicate 8 63)) z = [0x00, 0x00, 0, 0]
      ∧ (0 : Byte).toNat = 0 ∧ reply (.ptake .cc 17) z = [0x04, 0x00] ∧ 1 ≤ (16 : Byte).toNat
      ∧ (reply (.ptake .cc 16) (pulling [record 1 .void, record 2 .pending] none)).length = 2 + 256
      ∧ (after (.ptake .cc 16) (pulling [record 1 .void, record 2 .pending] none)).pull.records = [record 2 .pending]
      ∧ reply (.ptake .cc 2) (pulling [record 1 (.done 0x102 6 .failLow), record 2 .void] none)
          = [0x00, 2] ++ [0, 1, 0, 0, 0, 7, 0x04, 0x01, 0xFB, 0x66, 0, 1, 0, 2, 1, 2]
              ++ [0, 2, 0, 0, 0, 7, 0x04, 0x01, 0xFC, 0x02, 0, 1, 0, 2, 0, 0] := by
  refine ⟨rfl, ?_⟩
  decide +kernel

theorem test_PullCommands :
    let open1 := pulling [record 1 .pending, record 65535 .void] none
    let testing := pulling [record 1 .testing, record 2 .pending] (some { PullCapture.opening false with n := 1, vmax := some 9 })
    open1.hears .mh ∧ reply (.pstart .mh 3) open1 = [0x07, 0x00, 0, 1, 1, 0, 1, 1] ∧ reply (.pend .mh 3 1) open1 = [0x07, 0x00]
      ∧ reply (.pvoid .mh 3) open1 = [0x07, 0x00] ∧ reply (.pstart .mh 65535) open1 = [0x05, 15, 0, 1, 1, 0, 1, 1]
      ∧ reply (.pstart .mh 2) testing = [0x06, 0x00, 0, 1]
      ∧ reply (.pstart .mh 1) (open1.setChan .pf Channel.resetForce) = [0x05, 16]
      ∧ reply (.pstart .mh 1) open1 = [0x00, 0x00, 0, 0, 0, 7, 1, 0, 1, 15, 0] ∧ reply (.pend .mh 1 1) open1 = [0x05, 15]
      ∧ reply (.pend .mh 1 7) testing = [0x04, 0x00] ∧ reply (.pend .mh 1 6) testing = [0x00, 1, 0, 9, 0, 1, 0, 0]
      ∧ (after (.pend .mh 1 6) testing).hold.reasons.pullFail = true
      ∧ reply (.pvoid .mh 65535) open1 = [0x05, 15] ∧ reply (.pvoid .mh 1) open1 = [0x00, 0x00, 1, 0, 1, 0]
      ∧ reply (.pvoid .mh 1) testing = [0x00, 1, 1, 0, 1, 0] := by
  refine ⟨rfl, ?_⟩
  decide +kernel

/-! ### Hold Control -/

theorem test_HoldAndRelease :
    z.hears .cc ∧ z.hold.reasons.operator = false ∧ reply (.hold .cc) cell = [0x00, 1, 1, 0]
      ∧ reply (.hold .cc) (held ⟨true, false, false, false⟩ 0 false) = [0x00, 0x00, 1, 0]
      ∧ 16 ≤ (16 : Byte).toNat ∧ reply (.release .cc 16 0) z = [0x04, 0x00] ∧ (15 : Byte).toNat ≤ 15
      ∧ reply (.release .cc 15 5) (held ⟨true, true, true, true⟩ 4 true) = [0x0B, 0x00, 9, 6, 0]
      ∧ reply (.release .cc 15 4) (held ⟨true, true, true, true⟩ 4 true) = [0x05, 17, 13, 2, 0]
      ∧ reply (.release .cc 15 4) (held ⟨true, false, true, true⟩ 4 false) = [0x00, 0x00, 13, 0, 0]
      ∧ (after .holdinActive z).hold.reasons.line = true
      ∧ (after .holdinInactive (held ⟨false, true, false, false⟩ 0 true)).hold.reasons = .empty
      ∧ notices .holdinActive .mh (held ⟨false, true, false, false⟩ 0 true) = [] ∧ notices .holdinInactive .mh z = []
      ∧ z.hold.reasons.pullFail = false ∧ (z.addReason 4 .pullFail).hold.reasons = ⟨false, false, true, false⟩
      ∧ (held ⟨false, false, true, true⟩ 0 false).hold.reasons.pullFail = true ∧ z.hold.reasons.restart = false
      ∧ ((cell.addReason 7 .restart).port .mh).queue
          = [.hold 7 ⟨false, false, false, true⟩ false ⟨false, false, false, true⟩ .empty false]
      ∧ (cell.addReason 7 .restart).hold.enable = false
      ∧ (held ⟨false, false, true, true⟩ 0 false).addReason 7 .restart = held ⟨false, false, true, true⟩ 0 false := by
  refine ⟨rfl, ?_⟩
  decide +kernel

theorem test_SetcodeStoresTheCode :
    z.hears .cc ∧ reply (.setcode .cc 0 1) (held ⟨false, false, true, false⟩ 0 false) = [0x05, 18]
      ∧ reply (.setcode .cc 1 1) z = [0x0B, 0x00] ∧ reply (.setcode .cc 0 0xFFFF) z = [0x00, 1]
      ∧ reply (.setcode .cc 5 0) (held .empty 5 false) = [0x00, 0x00] := by
  refine ⟨rfl, ?_⟩
  decide +kernel

/-! ### The screen -/

/-- A state with a region defined. -/
def region (i : Nat) (r : Region) : State :=
  { z with screen := { z.screen with regions := z.screen.regions.setIfInBounds i (some r) } }

/-- A region of one cell at the corner of the panel. -/
def corner (o : Owner) : Region := { left := 47, top := 19, width := 1, height := 1, owner := o }

theorem test_RegionCommands :
    z.hears .cc ∧ reply (.rgdef .cc 8 0 0 0 0 1 1 0) z = [0x04, 0x00] ∧ reply (.rgdef .cc 7 0 0 47 19 2 1 0) z = [0x04, 0x00]
      ∧ reply (.rgdef .cc 7 4 0 0 0 23 2 0) z = [0x04, 0x00]
      ∧ reply (.rgdef .cc 7 3 0 47 19 1 1 15) (region 0 (corner (.port .cc))) = [0x05, 19]
      ∧ reply (.rgdef .cc 7 3 0 46 19 1 1 15) (region 7 (corner (.port .cc))) = [0x0A, 0x00]
      ∧ reply (.rgdef .cc 7 3 255 47 19 1 1 15) z = [0x00, 0x00, 1]
      ∧ reply (.rgdef .cc 0 3 255 46 19 1 1 15) (region 7 (corner (.port .cc))) = [0x00, 0x00, 2]
      ∧ reply (.rgdel .cc 8) z = [0x04, 0x00] ∧ reply (.rgdel .cc 7) z = [0x07, 0x00]
      ∧ reply (.rgdel .cc 7) (region 7 (corner (.port .mh))) = [0x00, 0x00, 3, 0]
      ∧ reply (.rgdel .cc 7) (region 7 (corner (.auto .pull .plain))) = [0x00, 0x00, 4, 4] := by
  refine ⟨rfl, ?_⟩
  decide +kernel

/-- The previous-result of MH after a WTXT whose header it was waiting for. -/
def header (i col row attr : Byte) (s : State) : CmdResult :=
  ((after (.wtxt .mh i col row attr) (framed .mh (.wtxtHeader [i]) s)).port .mh).previous

theorem test_WtxtWritesTheRegion :
    z.hears .mh ∧ header 8 0 0 0 z = .range ∧ header 7 0 0 0 z = .notFound
      ∧ header 7 0 0 0 (region 7 (corner (.port .cc))) = .role ∧ header 7 1 0 0 (region 7 (corner (.port .mh))) = .range
      ∧ header 7 0 0 16 (region 7 (corner (.port .mh))) = .range ∧ header 7 0 0 15 (region 7 (corner (.port .mh))) = .ok
      ∧ ((after (.wtxt .mh 7 0 0 15) (region 7 (corner (.port .mh)))).port .mh).framing = .wtxtText 7 0 0 ⟨7, true⟩
      ∧ (let s := framed .mh (.wtxtText 7 0 0 .plain) (region 7 (corner (.port .mh)))
         (after (.wtxtTextByte .mh 0x41) s).screen.cell 19 47 = { ch := 0x41, attr := .plain }
           ∧ ((after (.wtxtTextByte .mh 0x41) s).port .mh).framing = .wtxtText 7 0 0 .plain)
      ∧ ((after (.wtxtTextByte .mh 0x41) (framed .mh .wtxtCut z)).port .mh).previous = .notFound := by
  refine ⟨rfl, ?_⟩
  decide +kernel

/-- A state whose DL transmitter holds these bytes. -/
def sending (pnlrdy : Bool) (tx : Option Transfer) (holding shift : Option Byte) (dirty : Vector Bool 20) : State :=
  { z with screen := { z.screen with pnlrdy := pnlrdy, tx := tx, holding := holding, shift := shift, dirty := dirty } }

/-- An event that shows the HELD banner on a screen whose transmitter is IDLE, a last byte perhaps still going out. -/
def bannerEvent (pnlrdy : Bool) (shift : Option Byte) : State × State :=
  let old := { sending pnlrdy none none shift (Vector.replicate 20 false) with hold := { z.hold with enable := true } }
  (old, { old with hold := { old.hold with reasons := ⟨true, false, false, false⟩, enable := false } })

theorem test_an_event_starts_a_transfer :
    (∀ x : Option Byte, (bannerEvent true x).2.regionLaw) ∧
    (let (old, new) := bannerEvent true none
     let c := old.redraw new
     c.pnlrdy = true ∧ c.tx = none ∧ c.dirty ≠ old.screen.dirty ∧ c.holding = none ∧ c.dirty[0] = true ∧ c.dirty[2] = false
      ∧ (old.finish new).screen.shift = some 0x80 ∧ (old.finish new).screen.holding = some 0x43
      ∧ (old.finish new).screen.dirty = (Vector.replicate 20 false).set 1 true)
    ∧ (let (old, new) := bannerEvent true (some 9)
       (old.redraw new).shift ≠ none ∧ (old.finish new).screen.shift = some 9 ∧ (old.finish new).screen.holding = some 0x80)
    ∧ (let (old, new) := bannerEvent false none
       (old.redraw new).pnlrdy = false ∧ (old.finish new).screen.tx = none ∧ (old.finish new).screen.dirty[1] = true) := by
  refine ⟨fun x => ?_, by decide +kernel, by decide +kernel, by decide +kernel⟩
  have e : ∀ i, (bannerEvent true x).2.screen.region? i = none := by
    intro i
    show ((Vector.replicate 8 (none : Option Region))[i]?).join = none
    rw [Vector.getElem?_replicate]
    split <;> rfl
  constructor
  · intro i r h; rw [e i] at h; exact nomatch h
  · intro i j r q _ h; rw [e i] at h; exact nomatch h

theorem test_a_rendering_makes_rows_dirty :
    let drawn := fun (b : Banner) (row : Nat) => (z.screen.render b
      { left := 0, top := row, width := 1, height := 1, owner := .port .cc } .plain [[0x41]]).dirty
    let clean := fun (row : Nat) => ({ z.screen with dirty := Vector.replicate 20 false }.render .ready
      { left := 0, top := row, width := 1, height := 1, owner := .port .cc } .plain [[0x41]]).dirty
    (drawn .none 19)[19] = true ∧ (clean 2)[2] = true ∧ (clean 1)[1] = false ∧ (clean 2)[1] = false := by decide +kernel

theorem test_TransfersRunOverDL :
    let none20 := Vector.replicate 20 false
    (after .pnlrdyRise z).screen.shift = some 0x80 ∧ (after .pnlrdyRise z).screen.dirty[0] = false
      ∧ (after .pnlrdyFall (sending true (some ⟨19, [1]⟩) (some 2) (some 3) none20)).screen.dirty[19] = true
      ∧ (after .pnlrdyFall (sending true none none (some 3) none20)).screen.shift = none
      ∧ (after .dlByteSent (sending true (some ⟨19, [1]⟩) (some 2) (some 3) none20)).screen.shift = some 2
      ∧ (sending true (some ⟨19, []⟩) (some 2) (some 3) none20).screen.lowestDirty = none
      ∧ (after .dlByteSent (sending true (some ⟨19, []⟩) (some 2) (some 3) none20)).screen.tx = none
      ∧ (sending true (some ⟨0, []⟩) (some 2) (some 3) (none20.set 19 true)).screen.lowestDirty = some 19
      ∧ (after .dlByteSent (sending true (some ⟨0, []⟩) (some 2) (some 3) (none20.set 19 true))).screen.holding = some 0x93
      ∧ (after .dlByteSent (sending true none none (some 3) none20)).screen.shift = none
      ∧ (List.range 11).map (sending true none none (some 0x93) none20).screen.dl
          = [false, true, true, false, false, true, false, false, true, true, true]
      ∧ (after .pnlrdyFall (sending true none none (some 0x93) none20)).screen.dl 0 = true
      ∧ goesOn .dlByteSent z = true ∧ goesOn .pnlrdyFall z = true
      ∧ goesOn .pnlrdyRise (sending true none none none none20) = true := by decide +kernel

/-! ### The laws -/

theorem test_laws_met :
    issued.feedLaw ∧ (guarded 5000).guardLaw ∧ (armed .ball issued).bondLaw ∧ issued.queueLaw ∧ (held ⟨false, true, false, false⟩ 0 true).holdLaw
      ∧ (pulling [record 1 .testing, record 65535 .void] (some (.opening false))).storeLaw ∧ (listening true).timerLaw
      ∧ (racks [] [.stowed ⟨9, 0, 0, 0, 0, .none⟩] (some (fresh 2)) none (some strip)).serialLaw
      ∧ (sending true (some ⟨19, [1]⟩) (some 2) (some 3) (Vector.replicate 20 true)).screenLaw ∧ z.regionLaw := by
  refine ⟨?_, ?_, ?_, ?_, ?_, ?_, ?_, ?_, ?_, ?_⟩
  · intro h; cases h <;> unfold Feed.law <;> decide +kernel
  · unfold State.guardLaw; decide +kernel
  · intro h
    refine ⟨?_, ?_, ?_, ?_⟩
    · cases h <;> decide +kernel
    · cases h
      · intro a e
        have : a = ⟨ticket, .ball⟩ := (Option.some.inj (show some (⟨ticket, .ball⟩ : Armed) = some a from e)).symm
        subst this
        decide +kernel
      · intro a e; exact nomatch (show (none : Option Armed) = some a from e)
    · intro w t ph e; cases h <;> exact nomatch (show (none : Option Window) = some w from e)
    · intro w a e; cases h <;> exact nomatch (show (none : Option Window) = some w from e)
  · intro p; cases p <;> decide
  · unfold State.holdLaw; decide +kernel
  · refine ⟨by decide +kernel, by decide +kernel, by decide +kernel, by decide +kernel, by decide +kernel, ?_, fun m h => nomatch h⟩
    unfold Verdict.pulls; decide +kernel
  · intro l; cases l <;> decide +kernel
  · unfold State.serialLaw; decide +kernel
  · exact ⟨fun h => absurd h (by decide), fun _ h => absurd h (by decide), fun h => absurd h (by decide)⟩
  · have e : ∀ i, z.screen.region? i = none := by
      intro i
      show ((Vector.replicate 8 (none : Option Region))[i]?).join = none
      rw [Vector.getElem?_replicate]
      split <;> rfl
    constructor
    · intro i r h; rw [e i] at h; exact nomatch h
    · intro i j r q _ h; rw [e i] at h; exact nomatch h

theorem test_mapLaw_met : issued.mapLaw := by
  intro m h
  have e : mapOf issued = m := Option.some.inj (show some (mapOf issued) = some m from h)
  subst e
  have active : ∀ r ∈ (mapOf issued).units, r.state = .active := by decide +kernel
  refine ⟨by decide +kernel, by decide +kernel, by decide +kernel, by decide +kernel, by decide +kernel, by decide +kernel, ?_,
    by decide +kernel⟩
  intro r hr o ho
  rw [active r hr] at ho
  exact nomatch ho

theorem test_a_law_keeping_step :
    step { issued with pending := [.cancel .ha 255] } = .next { after (.cancel .ha 255) issued with pending := [] } := rfl

end Sys2Proof.Tests
end

section
/-! The commands of chapter 1 (PLOAD, PFREE, PSEL, LIMSET, PWIRE) and the release of RST: what each operation of the model
does, case by case, and the statements about them. -/

namespace Sys2Proof.Machine

/-! ### Program slots -/

/-- A command that refuses at its taking is refused. -/
theorem Refuses.of_carryOut {i : Instr} {s : State} {p : PortId} {c : Cmd} {f : State → State} {r : CmdResult}
    (hc : i.command? = some (p, c)) (he : exec i s = .next (s.finish (s.atomicRow p c (paramBytes i) f)))
    (hh : s.hears p) (ha : p.accepts c = true) (h : f (s.taking i) = (s.taking i).refuse p r) : Refuses i s r 0 :=
  Answers.of_carryOut (u := id) hc he hh ha h

theorem State.inUse_eq_true_iff (s : State) (slot : Nat) :
    s.inUse slot = true ↔ (s.program? slot).map Program.state = some .inUse := by
  unfold State.inUse
  cases s.program? slot <;> simp

theorem State.inUse_eq_false_iff (s : State) (slot : Nat) :
    s.inUse slot = false ↔ (s.program? slot).map Program.state ≠ some .inUse := by
  rw [← Bool.not_eq_true, State.inUse_eq_true_iff]

@[simp] theorem State.taking_inUse (s : State) (i : Instr) : (s.taking i).inUse = s.inUse := by
  funext slot
  simp only [State.inUse, State.taking_program?]

/-! ### PLOAD -/

theorem headerOk_iff (units pitch wires tiers flags : Nat) :
    headerOk units pitch wires tiers flags = true ↔
      1 ≤ units ∧ units ≤ 64 ∧ 1 ≤ pitch ∧ 1 ≤ wires ∧ wires ≤ 384 ∧ units * wires ≤ 8192 ∧ 1 ≤ tiers ∧ tiers ≤ 4
        ∧ flags ≤ 1 :=
  decide_eq_true_iff

section Pload

variable {p : PortId} {slot : Nat} {label : W16} {units pitch wires tiers flags : Nat} {s : State}

theorem doPload_of_no_slot (h : 3 < slot) : doPload p slot label units pitch wires tiers flags s = s.refuse p .range :=
  if_pos h

theorem doPload_of_inUse (h : slot ≤ 3) (hu : s.inUse slot = true) :
    doPload p slot label units pitch wires tiers flags s = s.refuse p .inUse := by
  rw [doPload, if_neg (Nat.not_lt.mpr h), if_pos hu]

theorem doPload_of_bad_header (h : slot ≤ 3) (hu : s.inUse slot = false)
    (hb : headerOk units pitch wires tiers flags = false) :
    doPload p slot label units pitch wires tiers flags s = s.refuse p .range := by
  rw [doPload, if_neg (Nat.not_lt.mpr h), if_neg (Bool.eq_false_iff.mp hu), if_pos (by simp [hb])]

theorem doPload_loads (h : slot ≤ 3) (hu : s.inUse slot = false) (hb : headerOk units pitch wires tiers flags = true) :
    doPload p slot label units pitch wires tiers flags s
      = { s with programs := { s.programs with
            slots := s.programs.slots.setIfInBounds slot (some (loadedProgram label units pitch wires tiers flags))
            selection := if s.programs.selection = some slot then none else s.programs.selection } }.respond p .ok 0 [] := by
  rw [doPload, if_neg (Nat.not_lt.mpr h), if_neg (Bool.eq_false_iff.mp hu), if_neg (by simp [hb])]
  rfl

end Pload

/-- Settles O13, by the branches of PLOAD in the order of R4. -/
theorem ploadLoadsTheHeader : Obligations.PloadLoadsTheHeader := by
  intro slot label units pitch wires tiers flags s hears
  refine ⟨fun big => ?_, fun le used => ?_, fun le free bad => ?_, fun le free u1 u64 p1 w1 w384 uw t1 t4 fl => ?_⟩
  · exact .of_carryOut rfl rfl hears rfl (doPload_of_no_slot big)
  · have used' := (s.inUse_eq_true_iff _).mpr used
    exact .of_carryOut rfl rfl hears rfl (doPload_of_inUse le (by rw [State.taking_inUse, used']))
  · have free' := (s.inUse_eq_false_iff _).mpr free
    have bad' := Bool.eq_false_iff.mpr (mt (headerOk_iff ..).mp bad)
    exact .of_carryOut rfl rfl hears rfl (doPload_of_bad_header le (by rw [State.taking_inUse, free']) bad')
  · have free' := (s.inUse_eq_false_iff _).mpr free
    have good := (headerOk_iff ..).mpr ⟨u1, u64, p1, w1, w384, uw, t1, t4, fl⟩
    exact .of_carryOut rfl rfl hears rfl (doPload_loads le (by rw [State.taking_inUse, free']) good)

/-! ### PFREE -/

section Pfree

variable {p : PortId} {slot : Nat} {s : State}

theorem doPfree_of_no_slot (h : 3 < slot) : doPfree p slot s = s.refuse p .range := if_pos h

theorem doPfree_of_inUse (h : slot ≤ 3) (hu : s.inUse slot = true) : doPfree p slot s = s.refuse p .inUse := by
  rw [doPfree, if_neg (Nat.not_lt.mpr h), if_pos hu]

theorem doPfree_empties (h : slot ≤ 3) (hu : s.inUse slot = false) :
    doPfree p slot s
      = { s with programs := { s.programs with
            slots := s.programs.slots.setIfInBounds slot none
            selection := if s.programs.selection = some slot then none else s.programs.selection } }.respond p .ok 0
          (b8 (programCode (s.program? slot)) :: be16 (((s.program? slot).map fun (q : Program) => q.label.toNat).getD 0)) := by
  rw [doPfree, if_neg (Nat.not_lt.mpr h), if_neg (Bool.eq_false_iff.mp hu)]
  rfl

end Pfree

/-- Settles O14, by the branches of PFREE in the order of R11. -/
theorem pfreeEmptiesTheSlot : Obligations.PfreeEmptiesTheSlot := by
  intro slot s hears
  refine ⟨fun big => ?_, fun le used => ?_, fun le free => ?_⟩
  · exact .of_carryOut rfl rfl hears rfl (doPfree_of_no_slot big)
  · have used' := (s.inUse_eq_true_iff _).mpr used
    exact .of_carryOut rfl rfl hears rfl (doPfree_of_inUse le (by rw [State.taking_inUse, used']))
  · have free' := (s.inUse_eq_false_iff _).mpr free
    refine .of_carryOut rfl rfl hears rfl ((doPfree_empties le (by rw [State.taking_inUse, free'])).trans ?_)
    rw [State.taking_program?]
    rcases s.program? slot.toNat with _ | ⟨⟨⟩, _⟩ <;> rfl

/-! ### PSEL -/

theorem State.waitingStrip_eq_some {s : State} {r : StripRecord} (hz : s.tracker.zone = some r)
    (hb : r.binding = .waiting) : s.waitingStrip = some r := by
  simp [State.waitingStrip, hz, Option.filter, hb]

theorem State.waitingStrip_eq_none {s : State} (h : ∀ r, s.tracker.zone = some r → r.binding ≠ .waiting) :
    s.waitingStrip = none := by
  simpa [State.waitingStrip, Option.filter_eq_none_iff] using h

@[simp] theorem State.taking_waitingStrip (s : State) (i : Instr) : (s.taking i).waitingStrip = s.waitingStrip := by
  simp only [State.waitingStrip, State.taking_tracker]

theorem pselData_loading {prog : Program} (h : prog.state = .loading) :
    pselData (some prog) = [1] ++ be16 prog.label.toNat ++ be16 prog.table.length := by
  simp [pselData, programCode, h, b8]

theorem pselData_selectable {prog : Program} (h : prog.state ≠ .loading) :
    pselData (some prog)
      = [if prog.state = .ready then 2 else 3] ++ be16 prog.label.toNat ++ be16 prog.table.length := by
  cases hs : prog.state with
  | loading => exact absurd hs h
  | ready => simp [pselData, programCode, hs, b8]
  | inUse => simp [pselData, programCode, hs, b8]

section Psel

variable {p : PortId} {v : Nat} {s : State}

theorem doPsel_of_no_slot (h : 4 ≤ v) (h' : v ≤ 254) : doPsel p v s = s.refuse p .range := by
  rw [doPsel, if_neg (by omega), if_pos (by omega)]

theorem doPsel_clears :
    doPsel p 255 s = { s with programs := { s.programs with selection := none } }.respond p .ok 0 [] :=
  if_pos rfl

theorem doPsel_of_empty (h : v ≤ 3) (he : s.program? v = none) : doPsel p v s = s.respond p .state 0 (pselData none) := by
  rw [doPsel, if_neg (by omega), if_neg (by omega), he]

theorem doPsel_of_loading {prog : Program} (h : v ≤ 3) (hp : s.program? v = some prog) (hl : prog.state = .loading) :
    doPsel p v s = s.respond p .state 0 (pselData (some prog)) := by
  rw [doPsel, if_neg (by omega), if_neg (by omega), hp]
  exact if_pos hl

theorem doPsel_selects {prog : Program} (h : v ≤ 3) (hp : s.program? v = some prog) (hl : prog.state ≠ .loading)
    (hw : s.waitingStrip = none) :
    doPsel p v s = { s with programs := { s.programs with selection := some v } }.respond p .ok 0 (pselData (some prog)) := by
  simp only [doPsel, if_neg (show ¬v = 255 by omega), if_neg (show ¬3 < v by omega), hp, if_neg hl, hw]

theorem doPsel_binds {prog : Program} {r : StripRecord} (h : v ≤ 3) (hp : s.program? v = some prog)
    (hl : prog.state ≠ .loading) (hw : s.waitingStrip = some r) :
    doPsel p v s
      = ({ s with programs := { s.programs with selection := some v } }.buildMap v prog r).respond p .ok 1
          (pselData (some prog)) := by
  simp only [doPsel, if_neg (show ¬v = 255 by omega), if_neg (show ¬3 < v by omega), hp, if_neg hl, hw]

end Psel

/-- Settles O15, by the branches of PSEL in the order of R9 and R10. -/
theorem pselSelectsAndBinds : Obligations.PselSelectsAndBinds := by
  intro slot s hears
  refine ⟨fun h4 h254 => ?_, fun h255 => ?_, fun le empty => ?_, fun prog le held loading => ?_,
    fun prog le held fit none_waits => ?_, fun prog r le held fit zone waits => ?_⟩
  · exact .of_carryOut rfl rfl hears rfl (doPsel_of_no_slot h4 h254)
  · exact .of_carryOut (f := doPsel .cc slot.toNat) rfl rfl hears rfl (h255 ▸ doPsel_clears)
  · exact .of_carryOut rfl rfl hears rfl (doPsel_of_empty le (by rw [State.taking_program?, empty]))
  · rw [← pselData_loading loading]
    exact .of_carryOut rfl rfl hears rfl (doPsel_of_loading le (by rw [State.taking_program?, held]) loading)
  · rw [← pselData_selectable fit]
    have nobody := State.waitingStrip_eq_none none_waits
    exact .of_carryOut rfl rfl hears rfl
      (doPsel_selects le (by rw [State.taking_program?, held]) fit (by rw [State.taking_waitingStrip, nobody]))
  · rw [← pselData_selectable fit]
    have strip := State.waitingStrip_eq_some zone waits
    exact .of_carryOut rfl rfl hears rfl
      (doPsel_binds le (by rw [State.taking_program?, held]) fit (by rw [State.taking_waitingStrip, strip]))

/-! ### LIMSET -/

theorem PhaseLimits.ok_iff (l : PhaseLimits) :
    l.ok = true ↔ l.defLo ≤ l.defHi ∧ l.usiLo ≤ l.usiHi ∧ l.durMin ≤ l.durMax ∧ l.durMax ≤ 4095 :=
  decide_eq_true_iff

section Limset

variable {p : PortId} {i : Nat} {ball stitch : PhaseLimits} {pullMin : Nat} {s : State}

theorem doLimset_refuses (h : ¬(i ≤ 15 ∧ ball.ok = true ∧ stitch.ok = true)) :
    doLimset p i ball stitch pullMin s = s.refuse p .range := by
  by_cases hi : 15 < i
  · exact if_pos hi
  · rw [doLimset, if_neg hi, if_pos]
    cases hb : ball.ok
    · rfl
    · have hs : ¬stitch.ok = true := fun hs => h ⟨Nat.not_lt.mp hi, hb, hs⟩
      simp [hs]

theorem doLimset_replaces (hi : i ≤ 15) (hb : ball.ok = true) (hs : stitch.ok = true) :
    doLimset p i ball stitch pullMin s
      = { s with programs := { s.programs with
            limits := s.programs.limits.setIfInBounds i ⟨true, ball, stitch, pullMin⟩ } }.respond p .ok 0 [] := by
  simp [doLimset, Nat.not_lt.mpr hi, hb, hs]

end Limset

/-- Settles O16, by the checks of LIMSET (R13). -/
theorem limsetReplacesTheSet : Obligations.LimsetReplacesTheSet := by
  intro index ball stitch pullMin s hears
  refine ⟨fun bad => ?_, fun le okBall okStitch => ?_⟩
  · refine .of_carryOut rfl rfl hears rfl (doLimset_refuses fun good => bad ?_)
    obtain ⟨le, okBall, okStitch⟩ := good
    exact ⟨le, (PhaseLimits.ok_iff _).mp okBall, (PhaseLimits.ok_iff _).mp okStitch⟩
  · exact .of_carryOut rfl rfl hears rfl
      (doLimset_replaces le ((PhaseLimits.ok_iff (.ofWords ball)).mpr okBall)
        ((PhaseLimits.ok_iff (.ofWords stitch)).mpr okStitch))

/-! ### Parameter bytes of PWIRE -/

@[simp] theorem State.setPort_program? (s : State) (p : PortId) (q : Port) : (s.setPort p q).program? = s.program? := rfl

/-- The event of a parameter byte on a port that takes its clock. -/
theorem State.byteEvent_of_hears {s : State} {p : PortId} (h : s.hears p) (d : Byte) :
    s.byteEvent p d = s.finish (s.paramByte p d) :=
  if_neg (Bool.eq_false_iff.mp h)

/-- A port after the slot byte of PWIRE, by what the slot holds (R6). -/
def Port.slotTaken (q : Port) (slot : Nat) (held : Option Program) : Port :=
  { q with
    dataOut := 0
    unfinished := none
    previous := if 3 < slot then .range else if held = none then .state else .ok
    framing := if 3 < slot ∨ held = none then .ignore else .pwireGroups slot [] }

/-- The slot byte on a port that waits for it (R6). -/
theorem State.byteEvent_pwireSlot {s : State} {p : PortId} (h : s.hears p) (hf : (s.port p).framing = .pwireSlot)
    (slot : Byte) :
    s.byteEvent p slot = s.setPort p ((s.port p).slotTaken slot.toNat (s.program? slot.toNat)) := by
  have taken : s.paramByte p slot
      = (s.setPort p { s.port p with dataOut := 0, unfinished := none }).takePwireSlot p slot.toNat := by
    simp [State.paramByte, hf, Port.outByte]
  rw [State.byteEvent_of_hears h, taken, State.takePwireSlot]
  by_cases big : 3 < slot.toNat
  · simp [big, Port.slotTaken, State.finish_setPort]
  · cases hp : s.program? slot.toNat with
    | none => simp [big, hp, Port.slotTaken, State.finish_setPort]
    | some prog => simp [big, hp, Port.slotTaken, State.finish_setPort]

/-- The row PWIRE on CC, whatever the port was doing: its command byte leaves nothing that the slot byte does not set. -/
theorem exec_pwire {s : State} (h : s.hears .cc) (slot : Byte) :
    exec (.pwire .cc slot) s = .next (s.setPort .cc ((s.port .cc).slotTaken slot.toNat (s.program? slot.toNat))) := by
  by_cases hf : (s.port .cc).framing = .pwireSlot
  · exact (if_pos hf).trans (congrArg _ (State.byteEvent_pwireSlot h hf slot))
  · have row : exec (.pwire .cc slot) s = .next ((s.commandByte .cc .pwire).byteEvent .cc slot) := if_neg hf
    have begun : s.commandByte .cc .pwire = s.setPort .cc ((s.port .cc).startCommand .cc .pwire) :=
      if_neg (Bool.eq_false_iff.mp h)
    have event := State.byteEvent_pwireSlot (p := .cc) (s := s.setPort .cc ((s.port .cc).startCommand .cc .pwire)) h rfl slot
    rw [row, begun, event, State.setPort_setPort, State.port_setPort_self, State.setPort_program?]
    rfl

/-! ### Groups of PWIRE -/

theorem groupOk_iff (p : Program) (e : WireEntry) :
    groupOk p e = true ↔ e.tier < p.tiers ∧ e.limitSet ≤ 15 ∧ e.profile ≤ 63 :=
  decide_eq_true_iff

theorem WireEntry.ofBytes_pwireGroup (p : PortId) (tier : Byte) (x : W16) (ls prof flags : Byte) :
    WireEntry.ofBytes (paramBytes (.pwireGroup p tier x ls prof flags))
      = { tier := tier.toNat, x := x.toNat, limitSet := ls.toNat, profile := prof.toNat,
          pullEligible := flags.getLsbD 0 } := by
  simp [WireEntry.ofBytes, paramBytes, be16, p8, p16]

section Group

variable {s : State} {p : PortId} {slot : Nat} {bytes : List Byte} {prog : Program}

theorem State.takePwireGroup_of_bad (hp : s.program? slot = some prog)
    (bad : groupOk prog (.ofBytes bytes) = false) :
    s.takePwireGroup p slot bytes = s.setPort p { s.port p with previous := .range, framing := .ignore } := by
  simp [State.takePwireGroup, hp, bad]

theorem State.takePwireGroup_of_full (hp : s.program? slot = some prog) (good : groupOk prog (.ofBytes bytes) = true)
    (full : prog.wires ≤ prog.table.length) :
    s.takePwireGroup p slot bytes = s.setPort p { s.port p with previous := .full, framing := .ignore } := by
  simp [State.takePwireGroup, hp, good, full]

theorem State.takePwireGroup_appends (hp : s.program? slot = some prog) (good : groupOk prog (.ofBytes bytes) = true)
    (room : prog.table.length < prog.wires) :
    s.takePwireGroup p slot bytes
      = (s.setPort p { s.port p with framing := .pwireGroups slot [] }).setProgram slot
          (some (prog.append (.ofBytes bytes))) := by
  simp [State.takePwireGroup, hp, good, Nat.not_le.mpr room]

/-- A group sets the framing of its port whatever it was. -/
theorem State.takePwireGroup_setFraming (q : Port) (f : Framing) :
    (s.setPort p { q with framing := f }).takePwireGroup p slot bytes = (s.setPort p q).takePwireGroup p slot bytes := by
  simp only [State.takePwireGroup, State.setPort_program?, State.port_setPort_self, State.setPort_setPort]

/-- A byte of a group that does not complete it (R7). -/
theorem State.byteEvent_groupByte (h : s.hears p) {received : List Byte}
    (hf : (s.port p).framing = .pwireGroups slot received) (short : received.length + 1 < 6) (d : Byte) :
    s.byteEvent p d = s.setPort p
      { s.port p with dataOut := 0, unfinished := none, framing := .pwireGroups slot (received ++ [d]) } := by
  rw [State.byteEvent_of_hears h]
  simp [State.paramByte, hf, Port.outByte, short, State.finish_setPort]

/-- The byte that completes a group (R7). -/
theorem State.byteEvent_lastGroupByte (h : s.hears p) {received : List Byte}
    (hf : (s.port p).framing = .pwireGroups slot received) (last : received.length + 1 = 6) (d : Byte) :
    s.byteEvent p d = s.finish
      ((s.setPort p { s.port p with dataOut := 0, unfinished := none }).takePwireGroup p slot (received ++ [d])) := by
  rw [State.byteEvent_of_hears h]
  simp [State.paramByte, hf, Port.outByte, last]

end Group

/-- The bytes of a group that are still to come: their events are one, that of the last (R7). -/
theorem State.deliver_group {p : PortId} {slot : Nat} (more : List Byte) :
    ∀ {s : State} {received : List Byte}, s.hears p → (s.port p).framing = .pwireGroups slot received → more ≠ [] →
      received.length + more.length = 6 →
      s.deliver p more = s.finish
        ((s.setPort p { s.port p with dataOut := 0, unfinished := none }).takePwireGroup p slot (received ++ more)) := by
  induction more with
  | nil => intro s received _ _ ne; exact absurd rfl ne
  | cons d more ih =>
    intro s received h hf _ len
    have split : s.deliver p (d :: more) = (s.byteEvent p d).deliver p more := rfl
    rw [List.length_cons] at len
    by_cases last : more = []
    · subst last
      exact State.byteEvent_lastGroupByte h hf len d
    · have more1 := List.length_pos_iff.mpr last
      rw [split, State.byteEvent_groupByte h hf (by omega) d,
        ih (received := received ++ [d]) (by simpa [State.hears] using h) (by simp) last (by simp; omega)]
      have same := State.takePwireGroup_setFraming (s := s) (p := p) (slot := slot) (bytes := received ++ d :: more)
        { s.port p with dataOut := 0, unfinished := none } (.pwireGroups slot (received ++ [d]))
      simpa [State.finish_setPort_left] using congrArg s.finish same

/-- The row PWIRE_GROUP on a port that has received the beginning of the group is the group (R7). -/
theorem exec_pwireGroup {s : State} {p : PortId} (h : s.hears p) {slot : Nat} {received : List Byte} {tier : Byte} {x : W16}
    {ls prof flags : Byte} (hf : (s.port p).framing = .pwireGroups slot received)
    (begun : received.isPrefixOf (paramBytes (.pwireGroup p tier x ls prof flags)) = true) (len : received.length < 6) :
    exec (.pwireGroup p tier x ls prof flags) s = .next (s.finish
      ((s.setPort p { s.port p with dataOut := 0, unfinished := none }).takePwireGroup p slot
        (paramBytes (.pwireGroup p tier x ls prof flags)))) := by
  have six : (paramBytes (.pwireGroup p tier x ls prof flags)).length = 6 := rfl
  show Host.Outcome.next (s.deliver p ((s.port p).groupBytes (paramBytes (.pwireGroup p tier x ls prof flags)))) = _
  generalize paramBytes (.pwireGroup p tier x ls prof flags) = bytes at *
  obtain ⟨more, rfl⟩ := List.isPrefixOf_iff_prefix.mp begun
  rw [List.length_append] at six
  have rest : (s.port p).groupBytes (received ++ more) = more := by
    have short : received.length < received.length + more.length := by omega
    simp [Port.groupBytes, hf, unreceived, begun, short]
  have ne : more ≠ [] := by
    rintro rfl
    rw [List.length_nil] at six
    omega
  rw [rest, State.deliver_group more h hf ne six]

/-- Settles O17: the row PWIRE is its slot byte, and the row PWIRE_GROUP the group that its bytes complete. -/
theorem pwireTakesGroups : Obligations.PwireTakesGroups := by
  intro s hears
  refine ⟨exec_pwire hears, fun slot received tier x ls prof flags prog framing begun len held => ?_⟩
  have row := exec_pwireGroup hears framing begun len
  have entry := WireEntry.ofBytes_pwireGroup .cc tier x ls prof flags
  generalize paramBytes (.pwireGroup .cc tier x ls prof flags) = bytes at row entry
  have ok : groupOk prog (.ofBytes bytes) = true ↔ tier.toNat < prog.tiers ∧ ls.toNat ≤ 15 ∧ prof.toNat ≤ 63 := by
    rw [groupOk_iff, entry]
  have held' : ∀ q, (s.setPort .cc q).program? slot = some prog := fun _ => held
  refine ⟨fun bad => ?_, fun good full => ?_, fun good room => ?_⟩
  · have bad' := Bool.eq_false_iff.mpr (mt ok.mp bad)
    simp [row, State.takePwireGroup_of_bad (held' _) bad', State.finish_setPort]
  · simp [row, State.takePwireGroup_of_full (held' _) (ok.mpr good) full, State.finish_setPort]
  · simp [row, State.takePwireGroup_appends (held' _) (ok.mpr good) room, entry, Program.append]

/-! ### The release of RST -/

/-- A sample on a channel that is not enabled is dropped (R80). -/
theorem State.sample_of_disabled {s : State} {c : ChanId} (h : (s.chan c).enabled = false) (x : Int) : s.sample c x = s := by
  simp [State.sample, h]

section Released

variable (lines : LineLevels) (pending : List Instr)

theorem State.released_program (i : Fin 4) : (State.released lines pending).programs.slots[i] = none :=
  Vector.getElem_replicate ..

theorem State.released_limits (i : Fin 16) : (State.released lines pending).programs.limits[i] = LimitSet.reset :=
  Vector.getElem_replicate ..

theorem State.released_port (p : PortId) :
    ∃ ignoring, (State.released lines pending).port p = { Port.reset with ignoring := ignoring } := by
  cases p <;> exact ⟨_, rfl⟩

theorem State.released_feed (h : Head) : (State.released lines pending).feed h = Feed.reset := by cases h <;> rfl

theorem State.released_capture (h : Head) :
    ∃ win, (State.released lines pending).capture h = { BondCapture.reset with win := win } := by
  cases h <;> exact ⟨_, rfl⟩

theorem State.released_link (l : Link) : (State.released lines pending).link l = Receiver.reset := by cases l <;> rfl

theorem State.released_chan (c : ChanId) :
    (State.released lines pending).chan c = if c = .pf then Channel.resetForce else Channel.reset := by
  cases c <;> rfl

end Released

/-- Settles O3, block by block. -/
theorem rstClearsEveryBlock : Obligations.RstClearsEveryBlock := by
  intro s lines
  refine ⟨State.released lines s.pending, rfl, fun i => State.released_program .., rfl, fun i => ?limits, fun p => ?port, rfl,
    fun h => ?feed, rfl, rfl, fun c => ?chan, fun h => ?capture, fun l => ?link, ?rest⟩
  case limits =>
    rw [State.released_limits]
    exact ⟨rfl, rfl, rfl, rfl⟩
  case port =>
    obtain ⟨ignoring, e⟩ := State.released_port lines s.pending p
    rw [e]
    exact ⟨rfl, rfl, rfl, rfl, rfl⟩
  case feed =>
    rw [State.stopLine, State.released_feed]
    and_intros <;> rfl
  case chan =>
    have disabled : ((State.released lines s.pending).chan c).enabled = false := by
      rw [State.released_chan]
      split <;> rfl
    have empty : ∀ x, (State.released lines s.pending).sample c x = State.released lines s.pending :=
      State.sample_of_disabled disabled
    rw [State.released_chan]
    by_cases force : c = .pf
    · rw [if_pos force]
      exact ⟨rfl, rfl, rfl, rfl, rfl, rfl, rfl, rfl, fun head => absurd force head, empty⟩
    · rw [if_neg force]
      exact ⟨rfl, rfl, rfl, rfl, rfl, rfl, rfl, rfl, fun _ => ⟨rfl, rfl⟩, empty⟩
  case capture =>
    obtain ⟨win, e⟩ := State.released_capture lines s.pending h
    rw [e]
    exact ⟨rfl, rfl, rfl⟩
  case link =>
    rw [State.released_link]
    and_intros <;> rfl
  case rest =>
    and_intros <;> rfl

end Sys2Proof.Machine
end

section
/-! The law of the map (R19, R29, R34) and what keeps it: the slot transitions, the skip of a unit, the map build, the
test for completion, and so every step. -/

namespace Sys2Proof.Machine

/-! ### Counts of slots by state code -/

/-- The total of the slot state with a code (R19). -/
def Totals.ofCode (t : Totals) : Nat → Nat
  | 0 => t.opened
  | 1 => t.issued
  | 2 => t.first
  | 3 => t.closed
  | 4 => t.skipped
  | _ => 0

theorem Totals.ofCode_inc (t : Totals) (ph : SlotPhase) (c : Nat) :
    (t.inc ph).ofCode c = t.ofCode c + if ph.code = c then 1 else 0 := by
  match c with
  | 0 | 1 | 2 | 3 | 4 => cases ph <;> rfl
  | n + 5 => cases ph <;> simp [Totals.ofCode, SlotPhase.code]

theorem Totals.ofCode_dec (t : Totals) (ph : SlotPhase) (c : Nat) :
    (t.dec ph).ofCode c = t.ofCode c - if ph.code = c then 1 else 0 := by
  match c with
  | 0 | 1 | 2 | 3 | 4 => cases ph <;> rfl
  | n + 5 => cases ph <;> simp [Totals.ofCode, SlotPhase.code]

/-- The number of slots of a unit in the state with a code. -/
def UnitRec.phaseCount (r : UnitRec) (c : Nat) : Nat := r.slots.countP (fun sl => sl.phase.code == c)

/-- The number of slots of a map in the state with a code. -/
def StripMap.phaseCount (m : StripMap) (c : Nat) : Nat := (m.units.map (fun r => r.phaseCount c)).sum

theorem UnitRec.phaseCount_setPhase {r : UnitRec} {w : Nat} {sl : WireSlot} (h : r.slots[w]? = some sl) (ph : SlotPhase)
    (c : Nat) :
    (r.setPhase w sl ph).phaseCount c + (if sl.phase.code = c then 1 else 0)
      = r.phaseCount c + if ph.code = c then 1 else 0 := by
  obtain ⟨lt, rfl⟩ := List.getElem?_eq_some_iff.mp h
  obtain ⟨before, after, whole, -, put⟩ := List.exists_of_set (a' := { r.slots[w] with phase := ph }) lt
  simp only [UnitRec.phaseCount, UnitRec.setPhase, put]
  rw [show r.slots.countP _ = _ from congrArg _ whole]
  simp only [List.countP_append, List.countP_cons, beq_iff_eq]
  omega

/-! ### The law, unit by unit -/

/-- A DONE unit has nothing unclosed (R29). -/
def UnitRec.DoneClosed (r : UnitRec) : Prop := ∀ o, r.state = .done o → r.allClosed = true

theorem StripMap.law_iff (m : StripMap) :
    m.law ↔ (∀ c < 5, m.totals.ofCode c = m.phaseCount c) ∧ m.unitsFinished = m.units.countP UnitRec.finished
      ∧ (∀ r ∈ m.units, r.DoneClosed) ∧ (m.complete = true → m.unitsFinished = m.units.length) := by
  constructor
  · rintro ⟨opened, issued, first, closed, skipped, finished, done, complete⟩
    refine ⟨fun c hc => ?_, finished, done, complete⟩
    match c with
    | 0 => exact opened
    | 1 => exact issued
    | 2 => exact first
    | 3 => exact closed
    | 4 => exact skipped
    | n + 5 => omega
  · rintro ⟨totals, finished, done, complete⟩
    exact ⟨totals 0 (by omega), totals 1 (by omega), totals 2 (by omega), totals 3 (by omega), totals 4 (by omega), finished,
      done, complete⟩

/-- The units around one of them. -/
theorem StripMap.units_around {m : StripMap} {u : Nat} {r : UnitRec} (h : m.units[u]? = some r) (r' : UnitRec) :
    ∃ before after, m.units = before ++ r :: after ∧ m.units.set u r' = before ++ r' :: after := by
  obtain ⟨lt, rfl⟩ := List.getElem?_eq_some_iff.mp h
  obtain ⟨before, after, whole, -, put⟩ := List.exists_of_set (a' := r') lt
  exact ⟨before, after, whole, put⟩

/-- The slots of a unit are slots of the map. -/
theorem StripMap.phaseCount_unit_le {m : StripMap} {u : Nat} {r : UnitRec} (h : m.units[u]? = some r) (c : Nat) :
    r.phaseCount c ≤ m.phaseCount c := by
  obtain ⟨before, after, whole, -⟩ := m.units_around h r
  simp only [StripMap.phaseCount, whole, List.map_append, List.map_cons, List.sum_append, List.sum_cons]
  omega

/-- A unit record replaced keeps the law if the unit stays finished where it was, and closed where it is DONE, and if the
totals move as the unit's own counts do. -/
theorem StripMap.law_setUnit {m : StripMap} (law : m.law) {u : Nat} {r r' : UnitRec} {t : Totals}
    (hu : m.units[u]? = some r) (done : r.DoneClosed → r'.DoneClosed)
    (stays : r.DoneClosed → r.finished = true → r'.finished = true)
    (move : ∀ c < 5, t.ofCode c + r.phaseCount c = m.totals.ofCode c + r'.phaseCount c) :
    StripMap.law { m.setUnit u r r' with totals := t } := by
  obtain ⟨totals, finished, closed, complete⟩ := m.law_iff.mp law
  obtain ⟨before, after, whole, put⟩ := m.units_around hu r'
  have closed_r : r.DoneClosed := closed r (List.mem_of_getElem? hu)
  have stays_r := stays closed_r
  simp only [StripMap.phaseCount, whole, List.map_append, List.map_cons, List.sum_append, List.sum_cons] at totals
  simp only [whole, List.countP_append, List.countP_cons] at finished
  simp only [whole, List.length_append, List.length_cons] at complete
  refine (StripMap.law_iff _).mpr ⟨fun c hc => ?_, ?_, ?_, fun full => ?_⟩
  · have h1 := totals c hc
    have h2 := move c hc
    simp only [StripMap.phaseCount, StripMap.setUnit, put, List.map_append, List.map_cons, List.sum_append, List.sum_cons]
    omega
  · simp only [StripMap.setUnit, put, List.countP_append, List.countP_cons, finished]
    cases hr : r.finished <;> cases hr' : r'.finished <;> simp_all; omega
  · intro q hq
    rcases List.mem_or_eq_of_mem_set hq with old | rfl
    · exact closed q old
    · exact done closed_r
  · have full_before := complete full
    have le_before := before.countP_le_length (p := UnitRec.finished)
    have le_after := after.countP_le_length (p := UnitRec.finished)
    simp only [StripMap.setUnit, put, List.length_append, List.length_cons]
    cases hr : r.finished
    · simp only [hr, Bool.false_eq_true, if_false] at finished
      omega
    · simp only [Bool.not_true, Bool.false_and, Bool.false_eq_true, if_false]
      omega

/-! ### The slot transitions -/

/-- A change of a unit record that a transition may make: it leaves the slots, and a finished unit finished. -/
structure UnitRec.Moves (change : UnitRec → UnitRec) : Prop where
  slots : ∀ r, (change r).slots = r.slots
  done : ∀ r, r.DoneClosed → (change r).DoneClosed
  stays : ∀ r, r.DoneClosed → r.finished = true → (change r).finished = true

theorem UnitRec.moves_id : UnitRec.Moves id :=
  ⟨fun _ => rfl, fun _ h => h, fun _ _ h => h⟩

theorem UnitRec.Moves.comp {f g : UnitRec → UnitRec} (hf : UnitRec.Moves f) (hg : UnitRec.Moves g) :
    UnitRec.Moves (fun r => f (g r)) :=
  ⟨fun r => (hf.slots _).trans (hg.slots r), fun r h => hf.done _ (hg.done r h),
    fun r h fin => hf.stays _ (hg.done r h) (hg.stays r h fin)⟩

theorem UnitRec.allClosed_iff (r : UnitRec) : r.allClosed = true ↔ ∀ k ∈ r.unclosed, k = 0 := by
  simp [UnitRec.allClosed]

theorem UnitRec.allClosed_decUnclosed {r : UnitRec} (h : r.allClosed = true) (tier : Nat) :
    (r.decUnclosed tier).allClosed = true := by
  rw [UnitRec.allClosed_iff] at *
  intro k hk
  obtain ⟨i, hi⟩ := List.mem_iff_getElem?.mp hk
  rw [UnitRec.decUnclosed, List.getElem?_modify] at hi
  obtain ⟨j, hj, rfl⟩ := Option.map_eq_some_iff.mp hi
  have zero := h j (List.mem_of_getElem? hj)
  split <;> omega

/-- A change that leaves the state and the slots, and lets the unclosed counts fall only. -/
theorem UnitRec.moves_of_same_state {f : UnitRec → UnitRec} (slots : ∀ r, (f r).slots = r.slots)
    (state : ∀ r, (f r).state = r.state) (closed : ∀ r, r.allClosed = true → (f r).allClosed = true) :
    UnitRec.Moves f := by
  refine ⟨slots, fun r done o ho => closed r (done o (state r ▸ ho)), fun r _ fin => ?_⟩
  unfold UnitRec.finished at *
  rw [state]
  cases hs : r.state with
  | active => rw [hs] at fin; exact fin
  | done o => rfl
  | skipped => rw [hs] at fin; exact closed r fin

theorem UnitRec.moves_decUnclosed (tier : Nat) : UnitRec.Moves (fun r => r.decUnclosed tier) :=
  UnitRec.moves_of_same_state (fun _ => rfl) (fun _ => rfl) (fun _ h => UnitRec.allClosed_decUnclosed h tier)

theorem UnitRec.moves_countVerdict (v : Verdict) : UnitRec.Moves (fun r => r.countVerdict v) := by
  cases v <;> exact UnitRec.moves_of_same_state (fun _ => rfl) (fun _ => rfl) (fun _ h => h)

theorem UnitRec.moves_settle : UnitRec.Moves UnitRec.settle := by
  refine ⟨fun r => ?_, fun r done => ?_, fun r _ fin => ?_⟩ <;> unfold UnitRec.settle <;> split
  · rfl
  · rfl
  · rename_i last
    exact fun _ _ => last.2
  · exact done
  · rfl
  · exact fin

theorem UnitRec.moves_closeOne (tier : Nat) (v : Verdict) : UnitRec.Moves (fun r => r.closeOne tier v) :=
  UnitRec.moves_settle.comp ((UnitRec.moves_countVerdict v).comp (UnitRec.moves_decUnclosed tier))

theorem UnitRec.moves_skipOne (tier : Nat) : UnitRec.Moves (fun r => r.skipOne tier) :=
  UnitRec.moves_of_same_state (fun _ => rfl) (fun _ => rfl) (fun _ h => UnitRec.allClosed_decUnclosed h tier)

theorem UnitRec.finished_setPhase (r : UnitRec) (w : Nat) (sl : WireSlot) (ph : SlotPhase) :
    (r.setPhase w sl ph).finished = r.finished := rfl

/-- A transition request whose changes of the unit record are such keeps the law (R19, R22). -/
theorem StripMap.law_request {m : StripMap} (law : m.law) (u w : Nat)
    {req : UnitRec → SlotPhase → Option (SlotPhase × (UnitRec → UnitRec))}
    (moves : ∀ r ph ph' change, req r ph = some (ph', change) → UnitRec.Moves change) : (m.request u w req).law := by
  unfold StripMap.request
  split
  · exact law
  · rename_i r hu
    split
    · exact law
    · rename_i sl hw
      split
      · exact law
      · rename_i ph change hreq
        have mv := moves _ _ _ _ hreq
        refine m.law_setUnit law hu (fun done => mv.done _ done) (fun done fin => mv.stays _ done fin) fun c hc => ?_
        have total : m.totals.ofCode c = m.phaseCount c := (m.law_iff.mp law).1 c hc
        have le := m.phaseCount_unit_le hu c
        have moved := UnitRec.phaseCount_setPhase hw ph c
        have pos : (if sl.phase.code = c then 1 else 0) ≤ r.phaseCount c := by
          split
          · exact List.countP_pos_iff.mpr ⟨sl, List.mem_of_getElem? hw, by simpa⟩
          · omega
        have same : (change (r.setPhase w sl ph)).phaseCount c = (r.setPhase w sl ph).phaseCount c := by
          rw [UnitRec.phaseCount, mv.slots, UnitRec.phaseCount]
        rw [Totals.ofCode_inc, Totals.ofCode_dec, same]
        omega

theorem requestIssue_moves (h : Head) (n : Nat) (r : UnitRec) (ph ph' : SlotPhase) (change : UnitRec → UnitRec)
    (e : requestIssue h n r ph = some (ph', change)) : UnitRec.Moves change := by
  unfold requestIssue at e
  split at e <;> cases e
  exact UnitRec.moves_id

theorem requestBall_moves (h : Head) (n : Nat) (x : BondResult) (r : UnitRec) (ph ph' : SlotPhase)
    (change : UnitRec → UnitRec) (e : requestBall h n x r ph = some (ph', change)) : UnitRec.Moves change := by
  unfold requestBall at e
  split at e
  · split at e <;> cases e
    exact UnitRec.moves_id
  · cases e

theorem requestStitch_moves (h : Head) (n tier : Nat) (x : BondResult) (r : UnitRec) (ph ph' : SlotPhase)
    (change : UnitRec → UnitRec) (e : requestStitch h n tier x r ph = some (ph', change)) : UnitRec.Moves change := by
  unfold requestStitch at e
  split at e
  · split at e <;> cases e
    exact UnitRec.moves_closeOne ..
  · cases e

theorem requestRelease_moves (h : Head) (n tier : Nat) (r : UnitRec) (ph ph' : SlotPhase)
    (change : UnitRec → UnitRec) (e : requestRelease h n tier r ph = some (ph', change)) : UnitRec.Moves change := by
  unfold requestRelease at e
  split at e
  · split at e
    · split at e <;> cases e
      · exact UnitRec.moves_skipOne _
      · exact UnitRec.moves_id
    · cases e
  · split at e <;> cases e
    exact UnitRec.moves_closeOne ..
  · cases e

/-! ### The skip of a unit -/

/-- The slots of a unit after a skip, by state code (R30): the OPEN slots it turns are SKIPPED. -/
theorem UnitRec.phaseCount_skip (r : UnitRec) (table : List WireEntry) {c : Nat} :
    (r.skip table).phaseCount c + (if c = 0 then r.skipTurns else 0)
      = r.phaseCount c + if c = 4 then r.skipTurns else 0 := by
  unfold UnitRec.skip UnitRec.skipTurns
  cases hs : r.state with
  | active =>
    simp only [if_true, UnitRec.phaseCount, UnitRec.openCount]
    induction r.slots with
    | nil => simp
    | cons sl slots ih =>
      simp only [List.map_cons, List.countP_cons, beq_iff_eq] at *
      by_cases opened : sl.phase = .opened
      · have before : sl.phase.code = 0 := by rw [opened]; rfl
        have after : sl.skip.phase.code = 4 := by rw [WireSlot.skip, if_pos opened]; rfl
        rw [before, after, if_pos opened]
        match c with
        | 0 => simp only [if_true, Nat.reduceEqDiff, if_false] at *; omega
        | 4 => simp only [if_true, Nat.reduceEqDiff, if_false] at *; omega
        | 1 | 2 | 3 | n + 5 => grind
      · have same : sl.skip = sl := if_neg opened
        rw [same, if_neg opened, Nat.add_zero]
        omega
  | done o => simp [UnitRec.phaseCount]
  | skipped => simp

theorem UnitRec.skip_state (r : UnitRec) (table : List WireEntry) : (r.skip table).state = .skipped := by
  unfold UnitRec.skip
  split
  · rfl
  · rfl
  · assumption

theorem UnitRec.finished_skip {r : UnitRec} (table : List WireEntry) (done : r.DoneClosed) (fin : r.finished = true) :
    (r.skip table).finished = true := by
  unfold UnitRec.finished at *
  rw [UnitRec.skip_state]
  cases hs : r.state with
  | active => simp [hs] at fin
  | done o =>
    have closed := done o hs
    simpa [UnitRec.skip, hs, UnitRec.allClosed] using closed
  | skipped => simpa [UnitRec.skip, hs] using fin

theorem StripMap.law_skipUnit {m : StripMap} (law : m.law) (table : List WireEntry) (u : Nat) :
    (m.skipUnit table u).law := by
  unfold StripMap.skipUnit
  split
  · exact law
  · rename_i r hu
    have never (o : UnitOutcome) : (r.skip table).state ≠ .done o := by simp [UnitRec.skip_state]
    refine m.law_setUnit law hu (fun _ o ho => absurd ho (never o)) (fun done fin => UnitRec.finished_skip table done fin)
      fun c hc => ?_
    have turned := r.phaseCount_skip table (c := c)
    have total := (m.law_iff.mp law).1 c hc
    have le := m.phaseCount_unit_le hu c
    match c with
    | 0 | 1 | 2 | 3 | 4 => simp [Totals.ofCode] at *; omega
    | n + 5 => omega

/-! ### The map build -/

theorem Program.freshMap_law (prog : Program) (slot : Nat) (serial : W32) : (prog.freshMap slot serial).law := by
  refine (StripMap.law_iff _).mpr ⟨fun c hc => ?_, ?_, fun r hr o ho => ?_, ?_⟩
  · have unit : prog.freshUnit.phaseCount c = if c = 0 then prog.wires else 0 := by
      have code_zero : (0 == c) = decide (c = 0) := by cases c <;> rfl
      simp [UnitRec.phaseCount, Program.freshUnit, List.countP_replicate, SlotPhase.code, code_zero]
    simp only [StripMap.phaseCount, Program.freshMap, List.map_replicate, List.sum_replicate_nat, unit]
    match c with
    | 0 | 1 | 2 | 3 | 4 => simp [Totals.ofCode]
    | n + 5 => omega
  · have active : prog.freshUnit.finished = false := rfl
    simp [Program.freshMap, List.countP_replicate, active]
  · rw [List.eq_of_mem_replicate hr] at ho
    cases ho
  · intro complete
    cases complete

theorem StripMap.law_applyMask {m : StripMap} (law : m.law) (table : List WireEntry) (mask : List Byte) :
    (m.applyMask table mask).law := by
  unfold StripMap.applyMask
  induction List.range m.units.length generalizing m with
  | nil => exact law
  | cons u us ih =>
    rw [List.foldl_cons]
    split
    · exact ih (m.law_skipUnit law table u)
    · exact ih law

/-- A change of an entry that is there is the changed entry put in its place. -/
theorem modify_eq_set_of_getElem? {α : Type} {l : List α} {i : Nat} {x : α} (h : l[i]? = some x) (f : α → α) :
    l.modify i f = l.set i (f x) := by
  refine List.ext_getElem? fun j => ?_
  by_cases same : i = j
  · subst same
    have lt : i < l.length := (List.getElem?_eq_some_iff.mp h).1
    rw [List.getElem?_modify, h, List.getElem?_set_self lt]
    simp only [if_true, Option.map_eq_map, Option.map_some]
  · rw [List.getElem?_modify, List.getElem?_set_ne same]
    simp only [same, if_false, Option.map_eq_map, Option.map_id_fun', id]

/-- A unit record with the pull-selected mark of a wire set. -/
def UnitRec.mark (r : UnitRec) (w : Nat) : UnitRec :=
  { r with slots := r.slots.modify w (fun sl => { sl with pullSelected := true }) }

theorem UnitRec.phaseCount_mark (r : UnitRec) (w c : Nat) : (r.mark w).phaseCount c = r.phaseCount c := by
  have codes : (r.mark w).slots.map (fun sl => sl.phase.code) = r.slots.map (fun sl => sl.phase.code) := by
    refine List.ext_getElem? fun i => ?_
    simp only [UnitRec.mark, List.getElem?_map, List.getElem?_modify]
    cases r.slots[i]? with
    | none => rfl
    | some sl => by_cases h : w = i <;> simp [h]
  have count (q : UnitRec) : q.phaseCount c = (q.slots.map (fun sl => sl.phase.code)).countP (· == c) := by
    rw [List.countP_map]
    rfl
  rw [count, count, codes]

theorem StripMap.law_mark {m : StripMap} (law : m.law) (i : SlotId) : (m.mark i).law := by
  have marked : m.mark i = { m with units := m.units.modify i.unit (fun r => r.mark i.wire) } := rfl
  cases hu : m.units[i.unit]? with
  | none =>
    rw [marked, List.modify_eq_self (List.getElem?_eq_none_iff.mp hu)]
    exact law
  | some r =>
    have one : m.mark i = { m.setUnit i.unit r (r.mark i.wire) with totals := m.totals } := by
      have same : (r.mark i.wire).finished = r.finished := rfl
      rw [marked, modify_eq_set_of_getElem? hu, StripMap.setUnit, same]
      simp only [Bool.not_and_self, Bool.false_eq_true, if_false, Nat.add_zero]
    rw [one]
    exact m.law_setUnit law hu (fun done => done) (fun _ fin => fin) fun c _ => by rw [UnitRec.phaseCount_mark]

theorem StripMap.law_marks {m : StripMap} (law : m.law) (marks : List SlotId) : (marks.foldl StripMap.mark m).law := by
  induction marks generalizing m with
  | nil => exact law
  | cons i marks ih => exact ih (m.law_mark law i)

/-! ### The state's operations -/

theorem State.mapLaw_of_map {s : State} {m : StripMap} (hm : s.map = some m) (law : m.law) : s.mapLaw := by
  intro m' hm'
  cases hm.symm.trans hm'
  exact law

/-- The law of the map reads the map only. -/
theorem State.mapLaw_congr {s t : State} (h : t.map = s.map) (law : s.mapLaw) : t.mapLaw :=
  fun m hm => law m (h ▸ hm)

theorem State.mapLaw_of_none {s : State} (h : s.map = none) : s.mapLaw := fun _ hm => nomatch h.symm.trans hm

theorem State.mapLaw_onMap {s : State} (law : s.mapLaw) {f : StripMap → StripMap} (keeps : ∀ m, m.law → (f m).law) :
    (s.onMap f).mapLaw := by
  intro m hm
  obtain ⟨m0, hm0, rfl⟩ := Option.map_eq_some_iff.mp hm
  exact keeps m0 (law m0 hm0)

theorem State.mapLaw_checkComplete {s : State} (law : s.mapLaw) : s.checkComplete.mapLaw := by
  unfold State.checkComplete
  split
  · exact law
  · rename_i m hm
    split
    · rename_i last
      obtain ⟨opened, issued, first, closed, skipped, finished, done, -⟩ := law m hm
      have all : m.unitsFinished = m.units.length := by simpa using (Bool.and_eq_true_iff.mp last).2
      exact State.mapLaw_of_map rfl ⟨opened, issued, first, closed, skipped, finished, done, fun _ => all⟩
    · exact law

theorem State.mapLaw_buildMap {s : State} {slot : Nat} {prog : Program} {strip : StripRecord} :
    (s.buildMap slot prog strip).mapLaw := by
  unfold State.buildMap
  refine State.mapLaw_congr (State.trigger_map _) (State.mapLaw_congr (State.clearCursors_map _)
    (State.mapLaw_congr (State.setProgram_map ..) (State.mapLaw_checkComplete (State.mapLaw_of_map rfl ?_))))
  exact StripMap.law_marks (StripMap.law_applyMask (Program.freshMap_law ..) ..) _

theorem State.discardMap_map (s : State) : s.discardMap.map = none := by
  unfold State.discardMap
  split
  · assumption
  · rfl

theorem State.mapLaw_cancelTicket {s : State} (law : s.mapLaw) {h : Head} {why : StrayReason} {t : Ticket} :
    (s.cancelTicket h why t).mapLaw := by
  unfold State.cancelTicket
  refine State.mapLaw_congr (State.checkClamp_map _) (State.mapLaw_checkComplete ?_)
  refine State.mapLaw_congr (State.setCapture_map ..) (State.mapLaw_congr (State.setFeed_map ..) ?_)
  exact State.mapLaw_onMap law fun m lm => m.law_request lm _ _ (requestRelease_moves h t.number t.tier)

theorem State.mapLaw_grantTicket {s : State} (law : s.mapLaw) {h : Head} {t : Ticket} : (s.grantTicket h t).mapLaw :=
  State.mapLaw_congr (s := s.onMap _) rfl
    (State.mapLaw_onMap law fun m lm => m.law_request lm _ _ (requestIssue_moves h t.number))

theorem State.mapLaw_issueTo {s : State} (law : s.mapLaw) {h : Head} {t : Ticket} : (s.issueTo h t).mapLaw :=
  State.mapLaw_congr (State.setFeed_map ..) (State.mapLaw_grantTicket law)

theorem State.mapLaw_commit {s : State} (law : s.mapLaw) {h : Head} {t : Ticket} {ph : Phase} {r : BondResult} :
    (s.commit h t ph r).mapLaw := by
  cases ph with
  | ball => exact State.mapLaw_onMap law fun m lm => m.law_request lm _ _ (requestBall_moves h t.number r)
  | stitch =>
    exact State.mapLaw_congr (s := s.onMap _) rfl
      (State.mapLaw_onMap law fun m lm => m.law_request lm _ _ (requestStitch_moves h t.number t.tier r))

theorem State.mapLaw_closeBound {s : State} (law : s.mapLaw) {h : Head} {w : Window} {t : Ticket} {ph : Phase} :
    (s.closeBound h w t ph).mapLaw := by
  have closed {r : BondResult} {x y : Bool} {c : BondCapture} :
      ((((s.commit h t ph r).setCapture h c).reportVerdict h t ph r x y).checkComplete.checkClamp).mapLaw :=
    State.mapLaw_congr (State.checkClamp_map _) (State.mapLaw_checkComplete
      (State.mapLaw_congr (State.reportVerdict_map ..) (State.mapLaw_commit law)))
  cases ph with
  | ball => exact closed
  | stitch => exact State.mapLaw_congr (State.trigger_map _) closed

theorem State.mapLaw_closeWindow {s : State} (law : s.mapLaw) (h : Head) : (s.closeWindow h).mapLaw := by
  unfold State.closeWindow
  dsimp only
  split
  · exact law
  · rename_i w _
    have gone : ((s.setCapture h { s.capture h with win := false, window := none, armed := none }).emptyHead h).mapLaw :=
      State.mapLaw_congr (State.emptyHead_map ..) law
    split
    · exact State.mapLaw_closeBound gone
    · exact State.mapLaw_congr (State.post_map ..) gone
    · exact gone

/-! ### Serves -/

theorem serveNext_mapLaw {s : State} (law : s.mapLaw) (h : Head) : (serveNext h s).mapLaw := by
  unfold serveNext
  split
  · exact State.mapLaw_congr (State.loadResponse_map ..) law
  · split
    · exact State.mapLaw_congr (State.loadResponse_map ..) (State.mapLaw_congr (State.postRunEnd_map ..)
        (State.mapLaw_issueTo law))
    · exact State.mapLaw_congr (State.loadResponse_map ..) law
    · exact law

theorem serveClaim_mapLaw {s : State} (law : s.mapLaw) {h : Head} {u w : Nat} : (serveClaim h u w s).mapLaw := by
  unfold serveClaim
  split
  · exact State.mapLaw_congr (State.loadResponse_map ..) law
  · exact State.mapLaw_congr (State.loadResponse_map ..) (State.mapLaw_grantTicket law)

theorem serveFill_mapLaw {s : State} (law : s.mapLaw) (h : Head) : (serveFill h s).mapLaw := by
  unfold serveFill
  split
  · exact State.mapLaw_congr (State.postRunEnd_map ..) (State.mapLaw_congr (State.post_map ..)
      (State.mapLaw_issueTo law))
  · exact law

theorem doArbiterServe_mapLaw {s : State} (law : s.mapLaw) : (doArbiterServe s).mapLaw := by
  unfold doArbiterServe
  split
  · exact law
  · rename_i h _
    have dropped := State.mapLaw_congr (State.dropRequest_map s h) law
    split
    · exact serveNext_mapLaw dropped h
    · exact serveClaim_mapLaw dropped
    · exact law

theorem doFillServe_mapLaw {s : State} (law : s.mapLaw) : (doFillServe s).mapLaw := by
  unfold doFillServe
  split
  · exact law
  · split
    · exact law
    · exact serveFill_mapLaw law _

/-! ### Commands -/

theorem doPsel_mapLaw {s : State} (law : s.mapLaw) {p : PortId} {v : Nat} : (doPsel p v s).mapLaw := by
  have selected (o : Option Nat) : { s with programs := { s.programs with selection := o } }.mapLaw := law
  unfold doPsel
  split
  · exact State.mapLaw_congr (State.respond_map ..) (selected none)
  split
  · exact State.mapLaw_congr (State.respond_map ..) law
  split
  · exact State.mapLaw_congr (State.respond_map ..) law
  split
  · exact State.mapLaw_congr (State.respond_map ..) law
  dsimp only
  split
  · exact State.mapLaw_congr (State.respond_map ..) (selected (some v))
  · exact State.mapLaw_congr (State.respond_map ..) State.mapLaw_buildMap

theorem doZone_mapLaw {s : State} (law : s.mapLaw) {p : PortId} {mask : Vector Byte 8} : (doZone p mask s).mapLaw := by
  unfold doZone
  split
  · exact State.mapLaw_congr (State.respond_map ..) law
  split
  · exact State.mapLaw_congr (State.respond_map ..) law
  dsimp only
  split
  · exact State.mapLaw_congr (State.respond_map ..) State.mapLaw_buildMap
  · exact State.mapLaw_congr (State.respond_map ..) (State.mapLaw_congr (State.post_map ..) law)

theorem doSkipu_mapLaw {s : State} (law : s.mapLaw) {p : PortId} {u : Nat} : (doSkipu p u s).mapLaw := by
  unfold doSkipu
  split
  · exact State.mapLaw_congr (State.respond_map ..) law
  rename_i m hm
  split
  · exact State.mapLaw_congr (State.respond_map ..) law
  rename_i r _
  have skipped (changed : Bool) :
      { s with map := some (m.skipCommand (s.boundProgram m).table u changed) }.checkComplete.mapLaw :=
    State.mapLaw_checkComplete (State.mapLaw_of_map rfl (m.law_skipUnit (law m hm) _ u))
  dsimp only
  split
  · exact State.mapLaw_congr (State.respond_map ..) (State.mapLaw_congr (State.trigger_map _) (skipped _))
  · exact State.mapLaw_congr (State.respond_map ..) (skipped _)

theorem doMaptake_mapLaw {s : State} (law : s.mapLaw) {p : PortId} : (doMaptake p s).mapLaw := by
  unfold doMaptake
  split
  · exact State.mapLaw_congr (State.respond_map ..) law
  rename_i m hm
  split
  · exact State.mapLaw_congr (State.respond_map ..) law
  · exact State.mapLaw_congr (State.respond_map ..) (State.mapLaw_of_map rfl (law m hm))

theorem doCancel_mapLaw {s : State} (law : s.mapLaw) {p : PortId} {n : Nat} {h : Head} : (doCancel p n h s).mapLaw := by
  unfold doCancel
  split
  · exact State.mapLaw_congr (State.respond_map ..) law
  · exact State.mapLaw_congr (State.respond_map ..) (State.mapLaw_congr (State.trigger_map _)
      (State.mapLaw_cancelTicket law))

theorem State.mapLaw_cancelAll {s : State} (law : s.mapLaw) (h : Head) (why : StrayReason) (ts : List Ticket) :
    (ts.foldl (fun s t => s.cancelTicket h why t) s).mapLaw := by
  induction ts generalizing s with
  | nil => exact law
  | cons t ts ih => exact ih (State.mapLaw_cancelTicket law)

theorem doFreset_mapLaw {s : State} (law : s.mapLaw) {p : PortId} {h : Head} : (doFreset p h s).mapLaw := by
  have cancelled := State.mapLaw_cancelAll law h .freset (s.feed h).tickets
  unfold doFreset
  dsimp only
  split
  · exact State.mapLaw_congr (State.respond_map ..) cancelled
  · exact State.mapLaw_congr (State.respond_map ..) (State.mapLaw_congr (State.trigger_map _) cancelled)

theorem doZrel_mapLaw {s : State} (law : s.mapLaw) {p : PortId} : (doZrel p s).mapLaw := by
  unfold doZrel
  split
  · exact State.mapLaw_congr (State.respond_map ..) law
  · exact State.mapLaw_congr (State.respond_map ..) (State.mapLaw_of_none (State.discardMap_map _))

theorem doRestart_mapLaw (p : PortId) (s : State) : (doRestart p s).mapLaw :=
  State.mapLaw_congr (State.respond_map ..) (State.mapLaw_congr (State.addReason_map ..)
    (State.mapLaw_of_none (State.discardMap_map s.emptyCaptures)))

theorem withHead_mapLaw {s : State} (law : s.mapLaw) (p : PortId) {f : Head → State → State}
    (keeps : ∀ h, (f h s).mapLaw) : (withHead p f s).mapLaw := by
  unfold withHead
  split
  · exact keeps _
  · exact law

/-- The commands that may change the map. -/
def changesMap : Cmd → Bool
  | .psel | .zone | .skipu | .maptake | .cancel | .freset | .zrel | .restart => true
  | _ => false

/-- Every other command leaves the map. -/
theorem carryOut_map {c : Cmd} (h : changesMap c = false) (p : PortId) (bs : List Byte) (s : State) :
    (carryOut c p bs s).map = s.map := by
  cases c <;> simp_all [changesMap, carryOut, withHead_map]

theorem carryOut_mapLaw {s : State} (law : s.mapLaw) (c : Cmd) (p : PortId) (bs : List Byte) :
    (carryOut c p bs s).mapLaw := by
  cases hc : changesMap c with
  | false => exact State.mapLaw_congr (carryOut_map hc p bs s) law
  | true =>
    cases c <;> simp only [changesMap, reduceCtorEq] at hc
    case psel => exact doPsel_mapLaw law
    case zone => exact doZone_mapLaw law
    case skipu => exact doSkipu_mapLaw law
    case maptake => exact doMaptake_mapLaw law
    case cancel => exact withHead_mapLaw law p fun _ => doCancel_mapLaw law
    case freset => exact withHead_mapLaw law p fun _ => doFreset_mapLaw law
    case zrel => exact doZrel_mapLaw law
    case restart => exact doRestart_mapLaw p s

/-- Each taking of a command and each event keeps the law of the map. -/
theorem State.keeps_mapLaw : Keeps State.mapLaw where
  port _ _ _ _ law := law
  screen _ _ law := law
  pending _ _ law := law
  command c p bs _ law := carryOut_mapLaw law c p bs
  group _ _ _ _ law := State.mapLaw_congr (State.takePwireGroup_map ..) law
  arbiter _ law := doArbiterServe_mapLaw law
  fill _ law := doFillServe_mapLaw law
  opens _ _ _ law := State.mapLaw_congr (State.openWindow_map ..) law
  closes h _ _ law := State.mapLaw_closeWindow law h
  holdOn _ law := State.mapLaw_congr (State.addReason_map ..) law
  holdOff _ law := State.mapLaw_congr (State.removeReasons_map ..) law
  rst _ _ := State.mapLaw_of_none rfl
  address _ _ _ law := State.mapLaw_congr (State.goodWord_map ..) law
  data _ _ _ law := State.mapLaw_congr (doDataWord_map ..) law
  framing _ _ law := State.mapLaw_congr (doFramingError_map ..) law
  expiry _ _ _ law := State.mapLaw_congr (doAbsenceExpiry_map ..) law
  rest _ _ law := law

/-- Settles O60: each taking and each event keeps the law of the map. -/
theorem stepKeepsMapLaw : Obligations.StepKeepsMapLaw :=
  State.keeps_mapLaw.step

end Sys2Proof.Machine
end

section
/-! The slot transitions case by case (R22 to R26, R29), the test for completion (R34) and the clamp grant (R135). -/

namespace Sys2Proof.Machine

/-! ### Slot transitions -/

/-- The unit record of a close: the slot in its new state, the counts of its tier and verdict, and DONE with its outcome
where an ACTIVE unit has nothing unclosed any more (R25, R27, R29). -/
theorem UnitRec.closeOne_setPhase (r : UnitRec) (w : Nat) (sl : WireSlot) (ph : SlotPhase) (tier : Nat) (v : Verdict) :
    (r.setPhase w sl ph).closeOne tier v
      = (let q : UnitRec := { r with
          slots := r.slots.set w { sl with phase := ph }
          unclosed := r.unclosed.modify tier (· - 1)
          good := if v = .good then r.good + 1 else r.good
          marginal := if v = .marginal then r.marginal + 1 else r.marginal
          unjudged := if v = .unjudged then r.unjudged + 1 else r.unjudged
          fail := if v = .fail then r.fail + 1 else r.fail }
        if r.state = .active ∧ q.unclosed.all (· == 0) = true then
          { q with state := .done (if 0 < q.fail then .reject else if 0 < q.unjudged then .suspect else .good) }
        else q) := by
  cases v <;> rfl

theorem Verdict.worse_eq (x y : Verdict) :
    Verdict.worse x y
      = if x = .fail ∨ y = .fail then .fail else if x = .unjudged ∨ y = .unjudged then .unjudged
        else if x = .marginal ∨ y = .marginal then .marginal else .good := by
  cases x <;> cases y <;> rfl

section Request

variable {m : StripMap} {u w : Nat} {r : UnitRec} {sl : WireSlot}
  {req : UnitRec → SlotPhase → Option (SlotPhase × (UnitRec → UnitRec))}

/-- A request that does not apply to the slot changes nothing (R22). -/
theorem StripMap.request_refused (hu : m.units[u]? = some r) (hw : r.slots[w]? = some sl) (refused : req r sl.phase = none) :
    m.request u w req = m := by
  simp [StripMap.request, hu, hw, refused]

/-- A request that applies moves the slot, the totals, the unit record and the count of finished units (R19, R22). -/
theorem StripMap.request_applied (hu : m.units[u]? = some r) (hw : r.slots[w]? = some sl) {ph : SlotPhase}
    {change : UnitRec → UnitRec} (applies : req r sl.phase = some (ph, change)) :
    m.request u w req
      = { m.setUnit u r (change (r.setPhase w sl ph)) with totals := (m.totals.dec sl.phase).inc ph } := by
  simp [StripMap.request, hu, hw, applies]

/-- A transition that leaves the rest of the unit record finishes no unit. -/
theorem StripMap.request_moved (hu : m.units[u]? = some r) (hw : r.slots[w]? = some sl) {ph : SlotPhase}
    (applies : req r sl.phase = some (ph, id)) :
    m.request u w req
      = { m with
          units := m.units.set u { r with slots := r.slots.set w { sl with phase := ph } }
          totals := (m.totals.dec sl.phase).inc ph } := by
  rw [m.request_applied hu hw applies, StripMap.setUnit, id, UnitRec.finished_setPhase]
  simp [UnitRec.setPhase]

end Request

theorem requestIssue_eq_none {h : Head} {n : Nat} {r : UnitRec} {ph : SlotPhase} (other : ph ≠ .opened) :
    requestIssue h n r ph = none := by
  unfold requestIssue
  split
  · exact absurd rfl other
  · rfl

theorem requestBall_eq_none {h : Head} {n : Nat} {x : BondResult} {r : UnitRec} {ph : SlotPhase}
    (other : ph ≠ .issued h n) : requestBall h n x r ph = none := by
  unfold requestBall
  split
  · rw [if_neg]
    rintro ⟨rfl, rfl⟩
    exact other rfl
  · rfl

theorem requestStitch_eq_none {h : Head} {n tier : Nat} {x : BondResult} {r : UnitRec} {ph : SlotPhase}
    (other : ∀ b, ph ≠ .first h n b) : requestStitch h n tier x r ph = none := by
  unfold requestStitch
  split
  · rw [if_neg]
    rintro ⟨rfl, rfl⟩
    exact other _ rfl
  · rfl

theorem requestRelease_eq_none {h : Head} {n tier : Nat} {r : UnitRec} {ph : SlotPhase}
    (notIssued : ph ≠ .issued h n) (notFirst : ∀ b, ph ≠ .first h n b) : requestRelease h n tier r ph = none := by
  unfold requestRelease
  split
  · rw [if_neg]
    rintro ⟨rfl, rfl⟩
    exact notIssued rfl
  · rw [if_neg]
    rintro ⟨rfl, rfl⟩
    exact notFirst _ rfl
  · rfl

theorem requestStitch_first {h : Head} {n tier : Nat} {x : BondResult} {r : UnitRec} {ball : BondResult} :
    requestStitch h n tier x r (.first h n ball)
      = some (.closed ball (some x) (Verdict.worse ball.verdict x.verdict) (closeCause ball x),
          fun q => q.closeOne tier (Verdict.worse ball.verdict x.verdict)) :=
  if_pos ⟨rfl, rfl⟩

theorem requestRelease_issued {h : Head} {n tier : Nat} {r : UnitRec} :
    requestRelease h n tier r (.issued h n)
      = if r.state = .skipped then some (.skipped, fun q => q.skipOne tier) else some (.opened, id) :=
  if_pos ⟨rfl, rfl⟩

theorem requestRelease_first {h : Head} {n tier : Nat} {r : UnitRec} {ball : BondResult} :
    requestRelease h n tier r (.first h n ball)
      = some (.closed ball none .fail .abandoned, fun q => q.closeOne tier .fail) :=
  if_pos ⟨rfl, rfl⟩

/-! ### Completion and the clamp -/

theorem State.checkComplete_completes {s : State} {m : StripMap} (hm : s.map = some m) (incomplete : m.complete = false)
    (all : m.unitsFinished = m.units.length) :
    s.checkComplete = { s with map := some { m with complete := true } }.postAll
      (.mapComplete m.serial (m.outcomes .reject) (m.outcomes .suspect)) := by
  simp [State.checkComplete, hm, incomplete, all]

theorem State.checkComplete_unchanged {s : State}
    (h : ∀ m, s.map = some m → m.complete = true ∨ m.unitsFinished ≠ m.units.length) : s.checkComplete = s := by
  unfold State.checkComplete
  split
  · rfl
  · rename_i m hm
    refine if_neg fun last => ?_
    rcases h m hm with done | left
    · simp [done] at last
    · simp [left] at last

/-- Settles O20: each request by the state of the slot, then the two tests. -/
theorem slotTransitionsAndCompletion : Obligations.SlotTransitionsAndCompletion := by
  refine ⟨fun m u w r sl h n tier x ball hu hw => ?_,
    fun s => ⟨fun m hm incomplete all => ?_, ?_, fun wait zero => ?_, fun no => ?_⟩⟩
  · obtain ⟨ph, selected⟩ := sl
    refine ⟨?_, ?_, ?_, ?_, ?_, ?_, ?_, ?_, ?_, ?_⟩
    · rintro rfl
      exact m.request_moved (req := requestIssue h n) (ph := .issued h n) hu hw rfl
    · exact fun other => m.request_refused hu hw (requestIssue_eq_none other)
    · rintro rfl
      exact m.request_moved (req := requestBall h n x) (ph := .first h n x) hu hw (if_pos ⟨rfl, rfl⟩)
    · exact fun other => m.request_refused hu hw (requestBall_eq_none other)
    · rintro rfl
      simp only [m.request_applied hu hw requestStitch_first, UnitRec.closeOne_setPhase, closeCause, Verdict.worse_eq]
      rfl
    · exact fun other => m.request_refused hu hw (requestStitch_eq_none other)
    · rintro rfl active
      exact m.request_moved hu hw (requestRelease_issued.trans (if_neg active))
    · rintro rfl skipped
      exact m.request_applied hu hw (requestRelease_issued.trans (if_pos skipped))
    · rintro rfl
      simp only [m.request_applied hu hw requestRelease_first, UnitRec.closeOne_setPhase]
      rfl
    · exact fun notIssued notFirst => m.request_refused hu hw (requestRelease_eq_none notIssued notFirst)
  · exact State.checkComplete_completes hm incomplete all
  · exact State.checkComplete_unchanged
  · exact if_pos ⟨wait, zero⟩
  · exact if_neg fun ⟨wait, zero⟩ => no.elim (· wait) (· zero)

end Sys2Proof.Machine
end

section
/-! SKIPU, MAPRD and MAPTAKE at their taking (R32, R35, R36), and the records of MAPRD byte by byte (section 11.8). -/

namespace Sys2Proof.Machine

/-! ### Refusals -/

/-- A command that answers STATE with a sub-reason at its taking is refused so. -/
theorem Refuses.of_refuseState {i : Instr} {s : State} {p : PortId} {c : Cmd} {f : State → State} {why : SubReason}
    (hc : i.command? = some (p, c)) (he : exec i s = .next (s.finish (s.atomicRow p c (paramBytes i) f)))
    (hh : s.hears p) (ha : p.accepts c = true) (h : f (s.taking i) = (s.taking i).refuseState p why) :
    Refuses i s .state why.code :=
  Answers.of_carryOut (u := id) hc he hh ha h

section Commands

variable {s : State} {p : PortId} {m : StripMap}

theorem doSkipu_of_no_map {u : Nat} (h : s.map = none) : doSkipu p u s = s.refuseState p .noMap := by
  simp [doSkipu, h]

theorem doMaprd_of_no_map {f n : Nat} (h : s.map = none) : doMaprd p f n s = s.refuseState p .noMap := by
  simp [doMaprd, h]

theorem doMaptake_of_no_map (h : s.map = none) : doMaptake p s = s.refuseState p .noMap := by
  simp [doMaptake, h]

theorem doSkipu_of_no_unit {u : Nat} (hm : s.map = some m) (hu : m.units[u]? = none) :
    doSkipu p u s = s.refuse p .range := by
  simp [doSkipu, hm, hu]

theorem doMaprd_of_range {f n : Nat} (hm : s.map = some m) (h : n = 0 ∨ m.units.length < f + n) :
    doMaprd p f n s = s.refuse p .range := by
  simp only [doMaprd, hm, if_pos h]

theorem doMaprd_reads {f n : Nat} (hm : s.map = some m) (pos : 0 < n) (le : f + n ≤ m.units.length) :
    doMaprd p f n s = s.respond p .ok (if m.complete then 1 else 0) (m.readout f n) := by
  have within : ¬(n = 0 ∨ m.units.length < f + n) := by omega
  simp only [doMaprd, hm, if_neg within]

theorem doMaptake_of_incomplete (hm : s.map = some m) (h : m.complete = false) :
    doMaptake p s = s.refuseState p .incomplete := by
  simp [doMaptake, hm, h]

theorem doMaptake_takes (hm : s.map = some m) (h : m.complete = true) :
    doMaptake p s = { s with map := some { m with exportTaken := true } }.respond p .ok 0 m.takeData := by
  simp [doMaptake, hm, h]

/-! ### SKIPU -/

theorem StripMap.skipCommand_eq {u : Nat} {r : UnitRec} (table : List WireEntry) (hu : m.units[u]? = some r) :
    m.skipCommand table u (r.state != .skipped)
      = { m with
          units := m.units.set u (r.skip table)
          unitsFinished := m.unitsFinished + (if !r.finished && (r.skip table).finished then 1 else 0)
          totals := { m.totals with opened := m.totals.opened - r.skipTurns, skipped := m.totals.skipped + r.skipTurns }
          exportTaken := m.exportTaken && r.state == UnitState.skipped } := by
  have kept : (!(r.state != .skipped)) = (r.state == UnitState.skipped) := by simp [bne]
  simp [StripMap.skipCommand, StripMap.skipUnit, StripMap.setUnit, hu, kept]

theorem doSkipu_skips {u : Nat} {r : UnitRec} (hm : s.map = some m) (hu : m.units[u]? = some r) :
    doSkipu p u s
      = (let m' := m.skipCommand (s.boundProgram m).table u (r.state != UnitState.skipped)
        let t := { s with map := some m' }.checkComplete
        if 0 < r.skipTurns then t.trigger else t).respond p .ok 0 (skipuData r) := by
  simp only [doSkipu, hm, hu]

end Commands

theorem UnitRec.heldCount_eq (r : UnitRec) :
    r.heldCount = r.slots.countP (fun sl => sl.phase.code == 1 || sl.phase.code == 2) := by
  have held (ph : SlotPhase) : ph.held = (ph.code == 1 || ph.code == 2) := by cases ph <;> rfl
  simp only [UnitRec.heldCount, held]

theorem WireSlot.skip_eq :
    WireSlot.skip = fun sl => if sl.phase == .opened then { sl with phase := .skipped } else sl := by
  funext sl
  simp [WireSlot.skip]

/-! ### The records of MAPRD -/

/-- The second byte of a unit record: state, and the outcome with its mark where there is one (section 11.8). -/
def UnitState.byte : UnitState → Byte
  | .active => 0
  | .skipped => b8 (1 + 4 + 8 * 3)
  | .done o => b8 (2 + 4 + 8 * o.code)

theorem UnitRec.bytes_eq (r : UnitRec) (u : Nat) :
    r.bytes u = [b8 u, r.state.byte] ++ be16 r.good ++ be16 r.marginal ++ be16 r.unjudged ++ be16 r.fail
      ++ be16 r.skipped := by
  have state : b8 (r.state.code + (match r.outcome? with | some o => 4 + 8 * o.code | none => 0)) = r.state.byte := by
    unfold UnitRec.outcome?
    cases r.state with
    | active => rfl
    | skipped => rfl
    | done o => exact congrArg b8 (Nat.add_assoc 2 4 (8 * o.code)).symm
  rw [← state]
  rfl

/-- The result byte of a judged bond, and of a close (section 11.8). -/
def judgedByte (v : Verdict) (c : Cause) : Byte := b8 (c.code + 16 * v.code)

/-- The seventeen bytes of a slot record behind its unit and wire, by the state of the slot, with the value of the
pull-selected flag (section 11.8). -/
def SlotPhase.bytes (selected : Nat) : SlotPhase → List Byte
  | .opened => [b8 selected] ++ List.replicate 16 0
  | .issued h k => [b8 (1 + 8 * h.code + selected), b8 k] ++ List.replicate 15 0
  | .first h k ball =>
    [b8 (2 + 8 * h.code + selected + 32), b8 k, judgedByte ball.verdict ball.cause, 0, 0] ++ be16 ball.DEF
      ++ [0, 0] ++ be16 ball.USI ++ [0, 0] ++ be16 ball.DUR ++ [0, 0]
  | .closed ball none v c =>
    [b8 (3 + selected + 32 + 128), 0, judgedByte ball.verdict ball.cause, 0, judgedByte v c] ++ be16 ball.DEF
      ++ [0, 0] ++ be16 ball.USI ++ [0, 0] ++ be16 ball.DUR ++ [0, 0]
  | .closed ball (some stitch) v c =>
    [b8 (3 + selected + 32 + 64 + 128), 0, judgedByte ball.verdict ball.cause, judgedByte stitch.verdict stitch.cause,
        judgedByte v c]
      ++ be16 ball.DEF ++ be16 stitch.DEF ++ be16 ball.USI ++ be16 stitch.USI ++ be16 ball.DUR ++ be16 stitch.DUR
  | .skipped => [b8 (4 + selected)] ++ List.replicate 16 0

theorem WireSlot.bytes_eq (sl : WireSlot) (u w : Nat) :
    sl.bytes u w = [b8 u] ++ be16 w ++ sl.phase.bytes (if sl.pullSelected then 16 else 0) := by
  obtain ⟨ph, selected⟩ := sl
  rcases ph with _ | ⟨h, k⟩ | ⟨h, k, ball⟩ | ⟨ball, _ | stitch, v, c⟩ | _ <;>
    simp [WireSlot.bytes, SlotPhase.bytes, SlotPhase.ball?, SlotPhase.stitch?, SlotPhase.owner?, SlotPhase.close?,
      SlotPhase.code, verdictByte, judgedByte, be16, b8]

theorem StripMap.readout_eq (m : StripMap) (f n : Nat) :
    m.readout f n
      = (let numbered := ((m.units.drop f).take n).zipIdx f
        numbered.flatMap (fun x => [b8 x.2, x.1.state.byte] ++ be16 x.1.good ++ be16 x.1.marginal ++ be16 x.1.unjudged
            ++ be16 x.1.fail ++ be16 x.1.skipped)
          ++ numbered.flatMap (fun x => x.1.slots.zipIdx.flatMap (fun y =>
            [b8 x.2] ++ be16 y.2 ++ y.1.phase.bytes (if y.1.pullSelected then 16 else 0)))) := by
  simp only [StripMap.readout, UnitRec.bytes_eq, WireSlot.bytes_eq]

/-- Settles O19: each command by its checks in their order. -/
theorem mapCommandsAnswer : Obligations.MapCommandsAnswer := by
  intro s hears
  refine ⟨fun u f n no => ⟨?_, ?_, ?_⟩, fun m hm => ⟨fun u hu => ?_, fun u r hu => ?_, fun f n bad => ?_,
    fun f n pos le => ?_, fun incomplete => ?_, fun complete => ?_⟩⟩
  · exact .of_refuseState rfl rfl hears rfl (doSkipu_of_no_map (by rw [State.taking_map, no]))
  · exact .of_refuseState rfl rfl hears rfl (doMaprd_of_no_map (by rw [State.taking_map, no]))
  · exact .of_refuseState rfl rfl hears rfl (doMaptake_of_no_map (by rw [State.taking_map, no]))
  · exact .of_carryOut rfl rfl hears rfl (doSkipu_of_no_unit (by rw [State.taking_map, hm]) hu)
  · refine .of_carryOut rfl rfl hears rfl ?_
    rw [doSkipu_skips (by rw [State.taking_map, hm]) hu, StripMap.skipCommand_eq _ hu, skipuData, UnitRec.heldCount_eq,
      State.taking_boundProgram]
    obtain ⟨state, unclosed, good, marginal, unjudged, fail, skipped, slots⟩ := r
    cases state with
    | active =>
      rw [UnitRec.skip, WireSlot.skip_eq]
      rfl
    | skipped => rfl
    | done o => rfl
  · exact .of_carryOut rfl rfl hears rfl (doMaprd_of_range (by rw [State.taking_map, hm]) bad)
  · refine .of_carryOut rfl rfl hears rfl ((doMaprd_reads (by rw [State.taking_map, hm]) pos le).trans ?_)
    rw [StripMap.readout_eq]
    rfl
  · exact .of_refuseState rfl rfl hears rfl (doMaptake_of_incomplete (by rw [State.taking_map, hm]) incomplete)
  · exact .of_carryOut (u := fun t => { t with map := some { m with exportTaken := true } }) rfl rfl hears rfl
      (doMaptake_takes (by rw [State.taking_map, hm]) complete)

end Sys2Proof.Machine
end

section
/-! The map build in the stages of R18: the units skipped by the mask, the marks of a sampled strip, and the state after. -/

namespace Sys2Proof.Machine

/-! ### The units and the mask -/

/-- A unit record after the skip mask, by the unit's flag (R18, R31). -/
def Program.maskedUnit (prog : Program) (flag : Bool) : UnitRec :=
  { state := if flag then .skipped else .active
    unclosed := [0, 1, 2, 3].map (fun tier =>
      if flag = false ∧ tier < prog.tiers then prog.table.countP (fun e => e.tier == tier) else 0)
    good := 0, marginal := 0, unjudged := 0, fail := 0
    skipped := if flag then prog.wires else 0
    slots := List.replicate prog.wires { phase := if flag then .skipped else .opened, pullSelected := false } }

/-- The map when the flags of the first `k` units have been applied (R31). -/
def Program.maskedMap (prog : Program) (slot : Nat) (serial : W32) (flags : Nat → Bool) (k : Nat) : StripMap :=
  let skipped := (List.range k).countP flags
  { serial := serial, program := slot, exportTaken := false, complete := false,
    totals := { opened := (prog.units - skipped) * prog.wires, issued := 0, first := 0, closed := 0,
                skipped := skipped * prog.wires },
    unitsFinished := skipped,
    units := (List.range prog.units).map (fun u => prog.maskedUnit (decide (u < k) && flags u)) }

theorem Program.freshUnit_eq (prog : Program) : prog.freshUnit = prog.maskedUnit false := by
  simp [Program.freshUnit, Program.maskedUnit, Program.tierCounts, List.range, List.range.loop]

theorem Program.freshMap_eq (prog : Program) (slot : Nat) (serial : W32) (flags : Nat → Bool) :
    prog.freshMap slot serial = prog.maskedMap slot serial flags 0 := by
  have units : (List.range prog.units).map (fun _ => prog.maskedUnit false)
      = List.replicate prog.units (prog.maskedUnit false) := by rw [List.map_const', List.length_range]
  simp [Program.freshMap, Program.maskedMap, Program.freshUnit_eq, units]

section Masked

variable {prog : Program} {slot : Nat} {serial : W32} {flags : Nat → Bool}

/-- With an entry for every wire, each wire of a fresh unit is an OPEN slot of its tier. -/
theorem Program.openOfTier_maskedUnit (whole : prog.table.length = prog.wires) (t : Nat) :
    (prog.maskedUnit false).openOfTier prog.table t = prog.table.countP (fun e => e.tier == t) := by
  have slots : (prog.maskedUnit false).slots.length = prog.table.length := List.length_replicate.trans whole.symm
  have tiers := List.map_snd_zip (Nat.le_of_eq slots.symm)
  have wires : (prog.maskedUnit false).openOfTier prog.table t
      = ((prog.maskedUnit false).slots.zip prog.table).countP ((fun e => e.tier == t) ∘ Prod.snd) := by
    refine List.countP_congr fun x hx => ?_
    have opened : x.1.phase = .opened := by rw [List.eq_of_mem_replicate (List.of_mem_zip hx).1]; rfl
    simp only [opened, BEq.rfl, Bool.true_and, Function.comp_apply]
  rw [wires, ← List.countP_map, tiers]

/-- With an entry for every wire, the skip of a fresh unit leaves nothing of it unclosed (R30). -/
theorem Program.skip_maskedUnit (whole : prog.table.length = prog.wires) :
    (prog.maskedUnit false).skip prog.table = prog.maskedUnit true := by
  have closed : (prog.maskedUnit false).unclosed.mapIdx
      (fun t k => k - (prog.maskedUnit false).openOfTier prog.table t) = (prog.maskedUnit true).unclosed := by
    have gone (tier n : Nat) : (if tier < prog.tiers then n else 0) - n = 0 := by split <;> simp
    simp only [Program.openOfTier_maskedUnit whole]
    simp [Program.maskedUnit, List.mapIdx_cons, gone]
  have opened : (prog.maskedUnit false).openCount = prog.wires := by
    simp [UnitRec.openCount, Program.maskedUnit, List.countP_replicate]
  have active : (prog.maskedUnit false).state = .active := rfl
  rw [UnitRec.skip, active]
  dsimp only
  rw [closed, opened]
  simp [Program.maskedUnit, WireSlot.skip]

theorem Program.skipTurns_maskedUnit : (prog.maskedUnit false).skipTurns = prog.wires := by
  simp [UnitRec.skipTurns, UnitRec.openCount, Program.maskedUnit, List.countP_replicate]

theorem Program.finished_maskedUnit (flag : Bool) : (prog.maskedUnit flag).finished = flag := by
  cases flag
  · rfl
  · simp [UnitRec.finished, UnitRec.allClosed, Program.maskedUnit]

/-- A flagged unit skipped (R31). -/
theorem Program.skipUnit_maskedMap (whole : prog.table.length = prog.wires) {k : Nat} (hk : k < prog.units)
    (flag : flags k = true) :
    (prog.maskedMap slot serial flags k).skipUnit prog.table k = prog.maskedMap slot serial flags (k + 1) := by
  have unit : (prog.maskedMap slot serial flags k).units[k]? = some (prog.maskedUnit false) := by
    simp [Program.maskedMap, hk]
  have one : (List.range (k + 1)).countP flags = (List.range k).countP flags + 1 := by
    simp [List.range_succ, flag]
  have units : (prog.maskedMap slot serial flags k).units.set k (prog.maskedUnit true)
      = (prog.maskedMap slot serial flags (k + 1)).units := by
    refine List.ext_getElem? fun i => ?_
    simp only [Program.maskedMap, List.getElem?_set, List.getElem?_map, List.length_map, List.length_range]
    by_cases same : k = i
    · subst same
      simp only [if_true, hk, List.getElem?_range hk, Option.map_some, Nat.lt_succ_self, decide_true, Bool.true_and, flag]
    · have before : (i < k + 1) ↔ (i < k) := by omega
      by_cases within : i < prog.units
      · simp only [same, if_false, List.getElem?_range within, Option.map_some, before]
      · have past : (List.range prog.units)[i]? = none := by rw [List.getElem?_eq_none_iff, List.length_range]; omega
        simp only [same, if_false, past, Option.map_none]
  rw [StripMap.skipUnit, unit]
  simp only [StripMap.setUnit, Program.skip_maskedUnit whole, Program.skipTurns_maskedUnit, Program.finished_maskedUnit,
    units]
  simp [Program.maskedMap, one, Nat.succ_mul, ← Nat.sub_sub, Nat.sub_one_mul]

/-- A unit whose flag is not set is left (R31). -/
theorem Program.maskedMap_succ {k : Nat} (flag : flags k = false) :
    prog.maskedMap slot serial flags (k + 1) = prog.maskedMap slot serial flags k := by
  have same (u : Nat) : (decide (u < k + 1) && flags u) = (decide (u < k) && flags u) := by
    by_cases last : u = k
    · simp [last, flag]
    · have before : (u < k + 1) ↔ (u < k) := by omega
      simp [before]
  simp only [Program.maskedMap, same]
  simp [List.range_succ, flag]

/-- The mask applied to the fresh map (R31). -/
theorem Program.applyMask_freshMap {mask : List Byte}
    (whole : (∀ u, u < prog.units → flagOf mask u = false) ∨ prog.table.length = prog.wires) :
    (prog.freshMap slot serial).applyMask prog.table mask = prog.maskedMap slot serial (flagOf mask) prog.units := by
  have first (k : Nat) (hk : k ≤ prog.units) :
      (List.range k).foldl (fun m u => if flagOf mask u then m.skipUnit prog.table u else m) (prog.freshMap slot serial)
        = prog.maskedMap slot serial (flagOf mask) k := by
    induction k with
    | zero => exact prog.freshMap_eq slot serial _
    | succ k ih =>
      rw [List.range_succ, List.foldl_append, ih (by omega), List.foldl_cons, List.foldl_nil]
      cases flag : flagOf mask k with
      | false => exact (Program.maskedMap_succ flag).symm
      | true =>
        have entries := whole.resolve_left fun clear => by simp [clear k hk] at flag
        exact Program.skipUnit_maskedMap entries hk flag
  have all : (prog.freshMap slot serial).units.length = prog.units := List.length_replicate
  rw [StripMap.applyMask, all]
  exact first prog.units (Nat.le_refl _)

/-! ### The marks -/

theorem Program.wire_pullEligible (prog : Program) (w : Nat) :
    (prog.wire w).pullEligible = ((prog.table[w]?).map WireEntry.pullEligible).getD false := by
  rw [Program.wire, List.getD]
  cases prog.table[w]? <;> rfl

/-- The pull-eligible wires of a unit (R142). -/
def Program.eligibleSlots (prog : Program) (u : Nat) : List SlotId :=
  ((List.range prog.wires).filter (fun w => ((prog.table[w]?).map WireEntry.pullEligible).getD false)).map (fun w => ⟨u, w⟩)

/-- The marks of a sampled strip pass over the units skipped and those the map does not have (R142). -/
theorem Program.marks_maskedMap (plan : PullStore) :
    (prog.maskedMap slot serial flags prog.units).marks prog plan
      = ((plan.units.filter (fun u => decide (u < prog.units) && !flags u)).flatMap prog.eligibleSlots).take plan.limit := by
  rw [StripMap.marks]
  congr 1
  induction plan.units with
  | nil => rfl
  | cons u us ih =>
    rw [List.flatMap_cons, ih]
    by_cases within : u < prog.units
    · have unit : (prog.maskedMap slot serial flags prog.units).units[u]? = some (prog.maskedUnit (flags u)) := by
        simp [Program.maskedMap, within]
      rw [unit]
      cases flag : flags u <;>
        simp [Program.maskedUnit, Program.eligibleSlots, Program.wire_pullEligible, within, flag]
    · simp [Program.maskedMap, within]

end Masked

/-- A unit record with the marks of its wires in a list set (R142). -/
def UnitRec.markAll (r : UnitRec) (u : Nat) (marks : List SlotId) : UnitRec :=
  { r with slots := r.slots.mapIdx (fun w sl =>
      { sl with pullSelected := sl.pullSelected || decide ((⟨u, w⟩ : SlotId) ∈ marks) }) }

theorem UnitRec.markAll_nil (r : UnitRec) (u : Nat) : r.markAll u [] = r := by
  have slots : r.slots.mapIdx (fun _ sl => sl) = r.slots := by
    refine List.ext_getElem? fun i => ?_
    simp
  simp [UnitRec.markAll, slots]

/-- The first mark of a list, then the others. -/
theorem UnitRec.markAll_cons (r : UnitRec) (u : Nat) (i : SlotId) (marks : List SlotId) :
    r.markAll u (i :: marks) = (if i.unit = u then r.mark i.wire else r).markAll u marks := by
  obtain ⟨v, x⟩ := i
  by_cases unit : v = u
  · subst unit
    simp only [if_pos, UnitRec.markAll, UnitRec.mark]
    congr 1
    refine List.ext_getElem? fun w => ?_
    simp only [List.getElem?_mapIdx, List.getElem?_modify]
    cases r.slots[w]? with
    | none => rfl
    | some sl => by_cases wire : x = w <;> simp [wire, eq_comm]
  · have other : ¬u = v := fun h => unit h.symm
    simp [unit, other, UnitRec.markAll]

/-- The marks set one after another (R142). -/
theorem StripMap.foldl_mark (marks : List SlotId) (m : StripMap) :
    marks.foldl StripMap.mark m = { m with units := m.units.mapIdx (fun u r => r.markAll u marks) } := by
  induction marks generalizing m with
  | nil =>
    have units : m.units.mapIdx (fun _ r => r) = m.units := by
      refine List.ext_getElem? fun i => ?_
      simp
    simp [UnitRec.markAll_nil, units]
  | cons i marks ih =>
    rw [List.foldl_cons, ih]
    simp only [StripMap.mark, UnitRec.markAll_cons]
    congr 1
    refine List.ext_getElem? fun u => ?_
    simp only [List.getElem?_mapIdx, List.getElem?_modify]
    cases m.units[u]? with
    | none => rfl
    | some r => by_cases unit : i.unit = u <;> simp [unit, UnitRec.mark]

/-- The map that a build lays out, by the flags of the units and the slots marked (R18, R31, R142). -/
def Program.builtMap (prog : Program) (slot : Nat) (serial : W32) (flags : Nat → Bool) (marks : List SlotId)
    (complete : Bool) : StripMap :=
  { prog.maskedMap slot serial flags prog.units with
    complete := complete
    units := (List.range prog.units).map (fun u =>
      { prog.maskedUnit (flags u) with
        slots := (List.range prog.wires).map (fun w =>
          { phase := if flags u then .skipped else .opened, pullSelected := decide ((⟨u, w⟩ : SlotId) ∈ marks) }) }) }

theorem Program.marked_maskedMap (prog : Program) (slot : Nat) (serial : W32) (flags : Nat → Bool) (marks : List SlotId) :
    marks.foldl StripMap.mark (prog.maskedMap slot serial flags prog.units)
      = prog.builtMap slot serial flags marks false := by
  rw [StripMap.foldl_mark]
  simp only [Program.maskedMap, Program.builtMap]
  congr 1
  refine List.ext_getElem? fun u => ?_
  simp only [List.getElem?_mapIdx, List.getElem?_map]
  by_cases within : u < prog.units
  · simp only [List.getElem?_range within, Option.map_some, within, decide_true, Bool.true_and, Program.maskedUnit,
      UnitRec.markAll]
    congr 2
    refine List.ext_getElem? fun w => ?_
    by_cases wire : w < prog.wires <;> simp [wire]
  · simp [within]

/-- No unit of a map just built is DONE, so only skipped units have an outcome. -/
theorem Program.outcomes_builtMap (prog : Program) (slot : Nat) (serial : W32) (flags : Nat → Bool) (marks : List SlotId)
    (complete : Bool) {o : UnitOutcome} (h : o ≠ .skipped) :
    (prog.builtMap slot serial flags marks complete).outcomes o = 0 := by
  rw [StripMap.outcomes, List.countP_eq_zero]
  intro r hr
  obtain ⟨u, -, rfl⟩ := List.mem_map.mp hr
  cases flags u <;> simp [UnitRec.outcome?, UnitState.outcome?, Program.maskedUnit, h.symm]

/-! ### The state after the build -/

theorem Feed.trigger_eq (f : Feed) :
    f.trigger = { f with fill := f.fill || (decide (f.state = .running) && decide (f.delivery = .push)) } := by
  have pushing : f.pushing = (decide (f.state = .running) && decide (f.delivery = .push)) := rfl
  rw [Feed.trigger, ← pushing]
  cases f.pushing <;> simp

theorem PullStore.samples_eq (p : PullStore) : p.samples = decide (p.period ≠ 0 ∧ p.counter + 1 = p.period) := by
  rw [Bool.eq_iff_iff]
  simp [PullStore.samples]

theorem PullStore.countAfter_eq (p : PullStore) :
    p.countAfter = if p.period = 0 ∨ p.counter + 1 = p.period then 0 else p.counter + 1 := by
  unfold PullStore.countAfter
  grind

/-- The flags of a strip's skip mask (R126). -/
def StripRecord.flags (r : StripRecord) : Nat → Bool := flagOf ((r.skipMask.map (·.toList)).getD [])

/-- The slots that a build marks (R142). -/
def State.buildMarks (s : State) (prog : Program) (r : StripRecord) : List SlotId :=
  if s.pull.samples then
    ((s.pull.units.filter (fun u => decide (u < prog.units) && !r.flags u)).flatMap prog.eligibleSlots).take s.pull.limit
  else []

/-- The state with the map built, before the test for completion. -/
def State.laidOut (s : State) (slot : Nat) (prog : Program) (r : StripRecord) : State :=
  { s with
    map := some (prog.builtMap slot r.serial r.flags (s.buildMarks prog r) false)
    pull := { s.pull with
      counter := s.pull.countAfter
      selection := (s.buildMarks prog r).map (fun i => ⟨i.unit, i.wire, none⟩) }
    tracker := { s.tracker with
      zone := some { r with binding := .bound slot, sampled := some s.pull.samples } } }

theorem State.buildMap_eq {s : State} {slot : Nat} {prog : Program} {r : StripRecord}
    (whole : (∀ u, u < prog.units → r.flags u = false) ∨ prog.table.length = prog.wires) :
    s.buildMap slot prog r
      = ((s.laidOut slot prog r).checkComplete.setProgram slot
          (some { prog with state := .inUse })).clearCursors.trigger := by
  have masked := Program.applyMask_freshMap (slot := slot) (serial := r.serial) whole
  simp only [State.buildMap, masked, Program.marks_maskedMap, Program.marked_maskedMap]
  rfl

/-- The completion of a map whose every unit was skipped (R34). -/
theorem State.checkComplete_laidOut (s : State) (slot : Nat) (prog : Program) (r : StripRecord) :
    let full := (List.range prog.units).countP r.flags = prog.units
    (s.laidOut slot prog r).checkComplete
      = { s.laidOut slot prog r with
          map := some (prog.builtMap slot r.serial r.flags (s.buildMarks prog r) (decide full))
          ports := (if full then s.postAll (.mapComplete r.serial 0 0) else s).ports } := by
  have units : (prog.builtMap slot r.serial r.flags (s.buildMarks prog r) false).units.length = prog.units := by
    simp [Program.builtMap]
  by_cases full : (List.range prog.units).countP r.flags = prog.units
  · have absent {o : UnitOutcome} (h : o ≠ .skipped) :=
      prog.outcomes_builtMap slot r.serial r.flags (s.buildMarks prog r) false h
    rw [State.checkComplete_completes (s := s.laidOut slot prog r) rfl rfl (full.trans units.symm),
      absent (o := .reject) nofun, absent (o := .suspect) nofun]
    simp only [full, decide_true, if_true]
    rfl
  · rw [State.checkComplete_unchanged]
    · simp only [full, decide_false, if_false]
      rfl
    · rintro m ⟨⟩
      exact .inr fun all => full (all.trans units)

theorem State.feed_clearCursors_trigger (s : State) (h : Head) :
    s.clearCursors.trigger.feed h = { s.feed h with
      cursor := none
      fill := (s.feed h).fill || (decide ((s.feed h).state = .running) && decide ((s.feed h).delivery = .push)) } := by
  have fed : s.clearCursors.trigger.feed h = Feed.trigger { s.feed h with cursor := none } := by cases h <;> rfl
  rw [fed, Feed.trigger_eq]

/-- Settles O18, by the stages of R18. -/
theorem mapBuildLaysOutTheMap : Obligations.MapBuildLaysOutTheMap := by
  intro s slot prog r flagged skipped sampled eligible marks t whole
  have flags : flagged = r.flags := by
    funext u
    simp only [flagged, StripRecord.flags]
    cases r.skipMask with
    | none => simp [flagOf]
    | some mask => rfl
  have sampled_eq : s.pull.samples = sampled := s.pull.samples_eq
  have marks_eq : s.buildMarks prog r = marks := by
    rw [State.buildMarks, sampled_eq, ← flags]
    rfl
  have built : t = _ := State.buildMap_eq (flags ▸ whole)
  rw [State.checkComplete_laidOut, ← flags, marks_eq] at built
  rw [built]
  refine ⟨rfl, ?_, rfl, fun h => ?_, ?_, rfl, rfl, rfl, rfl, rfl, rfl, rfl, rfl⟩
  · rw [← sampled_eq]
    rfl
  · rw [State.feed_clearCursors_trigger]
    rfl
  · rw [← marks_eq, ← PullStore.countAfter_eq]
    rfl

end Sys2Proof.Machine
end

section
/-! What a serve decides (R46 to R50, R55) and the number of the next ticket (R40): the facts that the laws of the feeds and
the statements about serves rest on. -/

namespace Sys2Proof.Machine

/-! ### The decision of a serve -/

theorem State.held_eq_true_iff (s : State) : s.held = true ↔ s.hold.reasons ≠ .empty ∨ s.hold.enable = false := by
  simp [State.held]

theorem State.held_eq_false_iff (s : State) : s.held = false ↔ s.hold.reasons = .empty ∧ s.hold.enable = true := by
  simp [State.held]

section Attempt

variable {s : State} {h : Head} {m : StripMap}

theorem State.attempt_of_no_map (hm : s.map = none) : s.attempt h = .error .noMap := by
  rw [State.attempt, hm]

theorem State.attempt_of_complete (hm : s.map = some m) (hc : m.complete = true) :
    s.attempt h = .error .mapComplete := by
  simp only [State.attempt, hm, hc, if_true]

theorem State.attempt_of_held (hm : s.map = some m) (hc : m.complete = false) (hh : s.held = true) :
    s.attempt h = .error .held := by
  simp [State.attempt, hm, hc, hh]

theorem State.attempt_of_clamp (hm : s.map = some m) (hc : m.complete = false) (hh : s.held = false)
    (hk : s.tracker.clamp ≠ .none) : s.attempt h = .error .clamp := by
  simp [State.attempt, hm, hc, hh, hk]

theorem State.attempt_of_not_running (hm : s.map = some m) (hc : m.complete = false) (hh : s.held = false)
    (hk : s.tracker.clamp = .none) (hr : (s.feed h).state ≠ .running) : s.attempt h = .error .feedOff := by
  simp [State.attempt, hm, hc, hh, hk, hr]

theorem State.attempt_of_full (hm : s.map = some m) (hc : m.complete = false) (hh : s.held = false)
    (hk : s.tracker.clamp = .none) (hr : (s.feed h).state = .running)
    (hd : (s.feed h).depth ≤ (s.feed h).tickets.length) : s.attempt h = .error .listFull := by
  simp [State.attempt, hm, hc, hh, hk, hr, hd]

/-- What the scan decides where the issue conditions of R48 hold. -/
def State.scanned (s : State) (m : StripMap) (h : Head) : Except NoneReason SlotId :=
  match (s.scanFor m h).find? (s.eligible m h) with
  | some i => .ok i
  | none =>
    if (s.scanFor m h).any (fun i => m.isOpen i && m.tierReady (s.boundProgram m) i && !s.guardFree m h i) then
      .error .guard
    else if (s.scanFor m h).any (fun i => m.isOpen i && s.guardFree m h i && !m.tierReady (s.boundProgram m) i) then
      .error .tierWait
    else .error .noWire

theorem State.attempt_of_room (hm : s.map = some m) (hc : m.complete = false) (hh : s.held = false)
    (hk : s.tracker.clamp = .none) (hr : (s.feed h).state = .running)
    (hd : (s.feed h).tickets.length < (s.feed h).depth) : s.attempt h = s.scanned m h := by
  simp only [State.attempt, hm, hc, hh, hk, hr, Nat.not_le.mpr hd, ne_eq, not_true_eq_false, Bool.false_eq_true,
    if_false]
  rfl

theorem State.scanned_eq_ok_iff {i : SlotId} :
    s.scanned m h = .ok i ↔ (s.scanFor m h).find? (s.eligible m h) = some i := by
  unfold State.scanned
  split
  · next j found => simp [found]
  · next found =>
    simp only [found, reduceCtorEq, iff_false]
    (repeat' split) <;> nofun

/-- The issue conditions (R48): a serve issues a slot exactly where all of them hold and the scan finds it. -/
theorem State.attempt_eq_ok_iff {i : SlotId} :
    s.attempt h = .ok i ↔ ∃ m, s.map = some m ∧ m.complete = false ∧ s.held = false ∧ s.tracker.clamp = .none
      ∧ (s.feed h).state = .running ∧ (s.feed h).tickets.length < (s.feed h).depth
      ∧ (s.scanFor m h).find? (s.eligible m h) = some i := by
  constructor
  · intro ok
    cases hm : s.map with
    | none => rw [State.attempt_of_no_map hm] at ok; nomatch ok
    | some m =>
      cases hc : m.complete with
      | true => rw [State.attempt_of_complete hm hc] at ok; nomatch ok
      | false =>
        cases hh : s.held with
        | true => rw [State.attempt_of_held hm hc hh] at ok; nomatch ok
        | false =>
          by_cases hk : s.tracker.clamp = .none
          · by_cases hr : (s.feed h).state = .running
            · rcases Nat.lt_or_ge (s.feed h).tickets.length (s.feed h).depth with hd | hd
              · rw [State.attempt_of_room hm hc hh hk hr hd, State.scanned_eq_ok_iff] at ok
                exact ⟨m, rfl, hc, rfl, hk, hr, hd, ok⟩
              · rw [State.attempt_of_full hm hc hh hk hr hd] at ok; nomatch ok
            · rw [State.attempt_of_not_running hm hc hh hk hr] at ok; nomatch ok
          · rw [State.attempt_of_clamp hm hc hh hk] at ok; nomatch ok
  · rintro ⟨m, hm, hc, hh, hk, hr, hd, found⟩
    rw [State.attempt_of_room hm hc hh hk hr hd, State.scanned_eq_ok_iff.mpr found]

end Attempt

/-! ### The checks of CLAIM -/

section Claim

variable {s : State} {h : Head} {u w : Nat} {m : StripMap} {sl : WireSlot}

theorem State.claimCheck_of_held (hh : s.held = true) : s.claimCheck h u w = .error (.held, 1) := by
  rw [State.claimCheck, if_pos hh]

theorem State.claimCheck_of_clamp (hh : s.held = false) (hk : s.tracker.clamp ≠ .none) :
    s.claimCheck h u w = .error (.state, 5) := by
  rw [State.claimCheck, if_neg (by simp [hh]), if_pos hk]
  rfl

theorem State.claimCheck_of_full (hh : s.held = false) (hk : s.tracker.clamp = .none)
    (hl : 4 ≤ (s.feed h).tickets.length) : s.claimCheck h u w = .error (.full, 0) := by
  rw [State.claimCheck, if_neg (by simp [hh]), if_neg (by simp [hk]), if_pos (show Config.listCapacity ≤ _ from hl)]

section Room

variable (hh : s.held = false) (hk : s.tracker.clamp = .none) (hl : (s.feed h).tickets.length < 4)
include hh hk hl

theorem State.claimCheck_of_no_map (hm : s.map = none) : s.claimCheck h u w = .error (.range, 0) := by
  simp [State.claimCheck, hh, hk, Config.listCapacity, Nat.not_le.mpr hl, hm]

theorem State.claimCheck_of_no_slot (hm : s.map = some m) (hs : m.slot? u w = none) :
    s.claimCheck h u w = .error (.range, 0) := by
  simp [State.claimCheck, hh, hk, Config.listCapacity, Nat.not_le.mpr hl, hm, hs]

theorem State.claimCheck_of_owner (hm : s.map = some m) (hs : m.slot? u w = some sl) {k : Head} {n : Nat}
    (ho : sl.phase.owner? = some (k, n)) :
    s.claimCheck h u w = if k = h then .error (.duplicate, 0) else .error (.held, 2) := by
  simp [State.claimCheck, hh, hk, Config.listCapacity, Nat.not_le.mpr hl, hm, hs, ho]

theorem State.claimCheck_of_not_opened (hm : s.map = some m) (hs : m.slot? u w = some sl) (ho : sl.phase.owner? = none)
    (hp : sl.phase ≠ .opened) : s.claimCheck h u w = .error (.state, 6) := by
  simp [State.claimCheck, hh, hk, Config.listCapacity, Nat.not_le.mpr hl, hm, hs, ho, hp, SubReason.code]

theorem State.claimCheck_of_opened (hm : s.map = some m) (hs : m.slot? u w = some sl) (hp : sl.phase = .opened) :
    s.claimCheck h u w =
      if m.tierReady (s.boundProgram m) ⟨u, w⟩ = false then .error (.state, 7)
      else if s.guardFree m h ⟨u, w⟩ = false then .error (.state, 8)
      else .ok (s.ticketFor m h ⟨u, w⟩) := by
  simp [State.claimCheck, hh, hk, Config.listCapacity, Nat.not_le.mpr hl, hm, hs, hp, SlotPhase.owner?, SubReason.code]

end Room

/-- What an accepted CLAIM has passed (R55). -/
theorem State.claimCheck_ok {t : Ticket} (ok : s.claimCheck h u w = .ok t) :
    s.held = false ∧ s.tracker.clamp = .none ∧ (s.feed h).tickets.length < 4
      ∧ ∃ m, s.map = some m ∧ s.guardFree m h ⟨u, w⟩ = true ∧ t = s.ticketFor m h ⟨u, w⟩ := by
  cases hh : s.held with
  | true => rw [State.claimCheck_of_held hh] at ok; nomatch ok
  | false =>
    by_cases hk : s.tracker.clamp = .none
    · rcases Nat.lt_or_ge (s.feed h).tickets.length 4 with hl | hl
      · refine ⟨rfl, hk, hl, ?_⟩
        cases hm : s.map with
        | none => rw [State.claimCheck_of_no_map hh hk hl hm] at ok; nomatch ok
        | some m =>
          cases hs : m.slot? u w with
          | none => rw [State.claimCheck_of_no_slot hh hk hl hm hs] at ok; nomatch ok
          | some sl =>
            cases ho : sl.phase.owner? with
            | some kn =>
              rw [State.claimCheck_of_owner hh hk hl hm hs ho] at ok
              split at ok <;> nomatch ok
            | none =>
              by_cases hp : sl.phase = .opened
              · rw [State.claimCheck_of_opened hh hk hl hm hs hp] at ok
                split at ok
                · nomatch ok
                · split at ok
                  · nomatch ok
                  · next free => cases ok; exact ⟨m, rfl, by simpa using free, rfl⟩
              · rw [State.claimCheck_of_not_opened hh hk hl hm hs ho hp] at ok; nomatch ok
      · rw [State.claimCheck_of_full hh hk hl] at ok; nomatch ok
    · rw [State.claimCheck_of_clamp hh hk] at ok; nomatch ok

end Claim

/-! ### Ticket numbers -/

theorem Feed.find_isSome_iff (f : Feed) (n : Nat) : (f.find n).isSome = true ↔ n ∈ f.tickets.map Ticket.number := by
  simp [Feed.find, List.find?_isSome]

/-- Of as many following numbers as there are tickets and one more, one is not held. -/
theorem exists_number_not_held {l : List Nat} {n : Nat} (hl : l.length < 256) :
    ∃ e, e ≤ l.length ∧ (n + e) % 256 ∉ l := by
  refine Classical.byContradiction fun none => ?_
  have all (e : Nat) (he : e ≤ l.length) : (n + e) % 256 ∈ l :=
    Classical.byContradiction fun free => none ⟨e, he, free⟩
  have nodup : ((List.range (l.length + 1)).map fun e => (n + e) % 256).Nodup := by
    refine List.pairwise_map.mpr (List.pairwise_lt_range.imp_of_mem fun hx hy lt => ?_)
    rw [List.mem_range] at hx hy
    omega
  have sub : ((List.range (l.length + 1)).map fun e => (n + e) % 256) ⊆ l := by
    intro x hx
    obtain ⟨e, he, rfl⟩ := List.mem_map.mp hx
    exact all e (Nat.le_of_lt_succ (List.mem_range.mp he))
  have length := nodup.length_le_of_subset sub
  rw [List.length_map, List.length_range] at length
  omega

/-- The number of the next ticket is the first from the next ticket number on that the list does not hold (R40). -/
theorem Feed.pickNumber_isNextFree (f : Feed) (hn : f.nextNumber < 256) (hl : (f.tickets.map Ticket.number).length < 256) :
    isNextFree 256 (· ∈ f.tickets.map Ticket.number) f.nextNumber f.pickNumber := by
  obtain ⟨e, he, free⟩ := exists_number_not_held (n := f.nextNumber) hl
  rw [List.length_map] at he
  have found := nextFree_isNextFree 256 (fun n => (f.find n).isSome) f.tickets.length f.nextNumber hn
    ⟨e, he, by rw [← Bool.not_eq_true, Feed.find_isSome_iff]; exact free⟩
  simp only [Feed.find_isSome_iff] at found
  exact found

theorem isNextFree.lt {modulus : Nat} {held : Nat → Prop} {next n : Nat} (h : isNextFree modulus held next n)
    (pos : 0 < modulus) : n < modulus := by
  obtain ⟨-, k, rfl, -⟩ := h
  exact Nat.mod_lt _ pos

end Sys2Proof.Machine
end

section
/-! What each taking of a command and each event but a serve does to the feeds: it issues nothing, keeps the law of each feed,
and changes the guard distance only while both lists are empty. -/

namespace Sys2Proof.Machine

/-! ### One feed -/

/-- A change of a feed that issues no ticket and keeps the feed law (R38, R40 to R42, R51). -/
structure Feed.IssueFree (f g : Feed) : Prop where
  tickets : g.tickets.Sublist f.tickets
  law : f.law → g.law

theorem Feed.IssueFree.refl (f : Feed) : f.IssueFree f := ⟨.refl _, id⟩

theorem Feed.IssueFree.trans {f g k : Feed} (x : f.IssueFree g) (y : g.IssueFree k) : f.IssueFree k :=
  ⟨y.tickets.trans x.tickets, y.law ∘ x.law⟩

/-- The feed law where tickets may only leave the list: what is left to show of depth, latch and fill request. -/
theorem Feed.IssueFree.of_parts {f g : Feed} (tickets : g.tickets.Sublist f.tickets) (next : g.nextNumber = f.nextNumber)
    (depth : 1 ≤ f.depth ∧ f.depth ≤ 4 → 1 ≤ g.depth ∧ g.depth ≤ 4)
    (latch : (f.latch = true → f.state ≠ .running) → g.latch = true → g.state ≠ .running)
    (fill : (f.fill = true → f.pushing = true) → g.fill = true → g.pushing = true) : f.IssueFree g := by
  refine ⟨tickets, ?_⟩
  rintro ⟨one, four, length, distinct, bytes, number, latched, filling⟩
  obtain ⟨one', four'⟩ := depth ⟨one, four⟩
  exact ⟨one', four', Nat.le_trans tickets.length_le length, distinct.sublist (tickets.map _),
    fun t ht => bytes t (tickets.subset ht), next ▸ number, latch latched, fill filling⟩

theorem Feed.issueFree_trigger (f : Feed) : f.IssueFree f.trigger := by
  unfold Feed.trigger
  split
  · next pushing => exact .of_parts (.refl _) rfl id id fun _ _ => pushing
  · exact .refl f

theorem Feed.issueFree_turnOff (f : Feed) : f.IssueFree f.turnOff := .of_parts (.refl _) rfl id nofun nofun

theorem Feed.issueFree_stop (f : Feed) (why : StopReason) : f.IssueFree (f.stop why) := by
  unfold Feed.stop
  split
  · exact .of_parts (.refl _) rfl id nofun nofun
  · exact .refl f

theorem Feed.issueFree_touch (f : Feed) : f.IssueFree { f.stop .touch with latch := true } := by
  unfold Feed.stop
  split
  · exact .of_parts (.refl _) rfl id nofun nofun
  · next off => exact .of_parts (.refl _) rfl id (fun _ _ => off) id

theorem Feed.issueFree_remove (f : Feed) (t : Ticket) : f.IssueFree (f.remove t) :=
  .of_parts List.erase_sublist rfl id id id

theorem Feed.issueFree_cursor (f : Feed) (c : Option SlotId) : f.IssueFree { f with cursor := c } :=
  .of_parts (.refl _) rfl id id id

theorem Feed.issueFree_request (f : Feed) (r : Option Request) : f.IssueFree { f with request := r } :=
  .of_parts (.refl _) rfl id id id

theorem Feed.issueFree_clearLatch (f : Feed) : f.IssueFree { f with latch := false } :=
  .of_parts (.refl _) rfl id nofun id

theorem Feed.issueFree_withdraw (f : Feed) : f.IssueFree { f with fill := false } :=
  .of_parts (.refl _) rfl id id nofun

theorem Feed.issueFree_restart (f : Feed) : f.IssueFree f.restart :=
  .of_parts (List.nil_sublist _) rfl id nofun nofun

theorem Feed.issueFree_reset (f : Feed) : f.IssueFree .reset :=
  ⟨List.nil_sublist _, fun _ => ⟨by decide, by decide, by decide, by decide, nofun, by decide, nofun, nofun⟩⟩

theorem Feed.issueFree_run (f : Feed) {count traversal fixedUnit order delivery depth : Nat}
    (ok : runOk traversal fixedUnit order delivery depth = true) (latch : f.latch = false) :
    f.IssueFree (f.run count traversal fixedUnit order delivery depth) := by
  obtain ⟨-, -, -, -, one, four⟩ := of_decide_eq_true ok
  refine .of_parts (.refl _) rfl (fun _ => ⟨one, four⟩) (fun _ on => nomatch latch.symm.trans on) fun _ fill => ?_
  simpa [Feed.run, Feed.pushing] using (Bool.and_eq_true_iff.mp fill).2

/-! ### Both feeds and the guard distance -/

/-- From one state to another no ticket is issued, each feed keeps its law, and the guard distance changes only while
neither list holds a ticket (R59). -/
structure State.IssueFree (s t : State) : Prop where
  feed : ∀ h, (s.feed h).IssueFree (t.feed h)
  guard : t.issuer.guard = s.issuer.guard ∨ ∀ h, (t.feed h).tickets = []

theorem State.IssueFree.of_issuer {s t : State} (e : t.issuer = s.issuer) : s.IssueFree t where
  feed h := by simpa only [State.feed, e] using Feed.IssueFree.refl _
  guard := .inl (by rw [e])

theorem State.IssueFree.refl (s : State) : s.IssueFree s := .of_issuer rfl

theorem State.IssueFree.trans {s t u : State} (x : s.IssueFree t) (y : t.IssueFree u) : s.IssueFree u where
  feed h := (x.feed h).trans (y.feed h)
  guard := by
    rcases y.guard with same | empty
    · rcases x.guard with same' | empty
      · exact .inl (same.trans same')
      · exact .inr fun h => List.eq_nil_of_subset_nil (empty h ▸ (y.feed h).tickets.subset)
    · exact .inr empty

/-- The issuer of the state before is what counts. -/
theorem State.IssueFree.congr {s t u : State} (x : s.IssueFree t) (e : u.issuer = t.issuer) : s.IssueFree u :=
  x.trans (.of_issuer e)

theorem State.IssueFree.respond {s t : State} (x : s.IssueFree t) (p : PortId) (r : CmdResult) (d : Nat) (data : List Byte) :
    s.IssueFree (t.respond p r d data) := x.congr (State.respond_issuer ..)

theorem State.issueFree_setFeed {s : State} {h : Head} {f : Feed} (x : (s.feed h).IssueFree f) :
    s.IssueFree (s.setFeed h f) where
  feed k := by
    rw [State.feed_setFeed]
    split
    · next e => exact e ▸ x
    · exact .refl _
  guard := .inl rfl

theorem State.issueFree_trigger (s : State) : s.IssueFree s.trigger where
  feed h := by rw [State.feed_trigger]; exact Feed.issueFree_trigger _
  guard := .inl rfl

theorem State.issueFree_clearCursors (s : State) : s.IssueFree s.clearCursors where
  feed h := by rw [State.feed_clearCursors]; exact Feed.issueFree_cursor _ _
  guard := .inl rfl

theorem State.issueFree_cancelTicket (s : State) (h : Head) (why : StrayReason) (t : Ticket) :
    s.IssueFree (s.cancelTicket h why t) :=
  (State.issueFree_setFeed (Feed.issueFree_remove (s.feed h) t)).congr (by simp [State.cancelTicket, State.feed])

theorem State.issueFree_cancelAll (s : State) (h : Head) (why : StrayReason) (ts : List Ticket) :
    s.IssueFree (ts.foldl (fun s t => s.cancelTicket h why t) s) := by
  induction ts generalizing s with
  | nil => exact .refl s
  | cons t ts ih => exact (s.issueFree_cancelTicket h why t).trans (ih _)

theorem State.issueFree_buildMap (s : State) (slot : Nat) (prog : Program) (r : StripRecord) :
    s.IssueFree (s.buildMap slot prog r) := by
  refine State.IssueFree.trans (.trans ?_ (State.issueFree_clearCursors _)) (State.issueFree_trigger _)
  exact .of_issuer (by simp)

theorem State.issueFree_releaseZone (s : State) (r : StripRecord) (m : StripMap) :
    s.IssueFree (s.releaseZone r m) := by
  refine State.IssueFree.congr (State.IssueFree.trans (.of_issuer ?_) (State.issueFree_clearCursors _)) rfl
  split <;> simp

theorem State.issueFree_discardWork (s : State) : s.IssueFree s.discardWork where
  feed h := by rw [State.feed_discardWork]; exact Feed.issueFree_restart _
  guard := .inr fun h => by rw [State.feed_discardWork]; rfl

theorem State.issueFree_released (s : State) (lines : LineLevels) (pending : List Instr) :
    s.IssueFree (State.released lines pending) where
  feed h := by cases h <;> exact Feed.issueFree_reset _
  guard := .inr fun h => by cases h <;> rfl

/-! ### Commands -/

theorem withHead_issueFree (p : PortId) {f : Head → State → State} {s : State} (free : ∀ h, s.IssueFree (f h s)) :
    s.IssueFree (withHead p f s) := by
  unfold withHead
  split
  · exact free _
  · exact .refl s

section Commands

variable (p : PortId) (h : Head) (s : State)

theorem doRun_issueFree (count traversal fixedUnit order delivery depth : Nat) :
    s.IssueFree (doRun p count traversal fixedUnit order delivery depth h s) := by
  unfold doRun
  split
  · exact .of_issuer (by simp)
  · next ok =>
    split
    · exact .of_issuer (by simp)
    · next latch =>
      have run := State.issueFree_setFeed ((s.feed h).issueFree_run (count := count) (by simpa using ok) (by simpa using latch))
      exact ((run.congr (State.askEnable_issuer _)).trans (State.issueFree_trigger _)).respond ..

theorem doHalt_issueFree : s.IssueFree (doHalt p h s) :=
  (State.issueFree_setFeed (s.feed h).issueFree_turnOff).respond ..

theorem State.waitFor_issueFree (r : Request) : s.IssueFree (s.waitFor p h r) :=
  (State.issueFree_setFeed ((s.feed h).issueFree_request (some r))).congr (by simp [State.waitFor])

theorem doNext_issueFree : s.IssueFree (doNext p h s) := by
  unfold doNext
  split
  · exact .of_issuer (by simp)
  · split
    · exact .of_issuer (by simp)
    · exact s.waitFor_issueFree p h _

theorem doClaim_issueFree (u w : Nat) : s.IssueFree (doClaim p u w h s) := by
  unfold doClaim
  split
  · exact .of_issuer (by simp)
  · exact s.waitFor_issueFree p h _

theorem doCancel_issueFree (n : Nat) : s.IssueFree (doCancel p n h s) := by
  unfold doCancel
  split
  · exact .of_issuer (by simp)
  · exact ((s.issueFree_cancelTicket h _ _).trans (State.issueFree_trigger _)).respond ..

theorem doFreset_issueFree : s.IssueFree (doFreset p h s) := by
  have cleared := (s.issueFree_cancelAll h .freset (s.feed h).tickets).trans (State.issueFree_setFeed (h := h)
    ((Feed.issueFree_turnOff _).trans (Feed.issueFree_cursor _ none)))
  unfold doFreset
  dsimp only
  split
  · exact cleared.respond ..
  · exact (cleared.trans (State.issueFree_trigger _)).respond ..

theorem doClrstop_issueFree : s.IssueFree (doClrstop p h s) := by
  unfold doClrstop
  dsimp only
  split
  · exact .of_issuer (by simp)
  · exact (State.issueFree_setFeed (s.feed h).issueFree_clearLatch).respond ..

theorem doPsel_issueFree (v : Nat) : s.IssueFree (doPsel p v s) := by
  unfold doPsel
  split
  · exact .of_issuer (by simp)
  · split
    · exact .of_issuer (by simp)
    · split
      · exact .of_issuer (by simp)
      · split
        · exact .of_issuer (by simp)
        · dsimp only
          split
          · exact .of_issuer (by simp)
          · exact State.IssueFree.respond (.trans (.of_issuer (by rfl)) (State.issueFree_buildMap _ _ _ _)) _ _ _ _

theorem doZone_issueFree (mask : Vector Byte 8) : s.IssueFree (doZone p mask s) := by
  unfold doZone
  split
  · exact .of_issuer (by simp)
  · split
    · exact .of_issuer (by simp)
    · dsimp only
      split
      · exact State.IssueFree.respond (.trans (.of_issuer (by rfl)) (State.issueFree_buildMap _ _ _ _)) _ _ _ _
      · exact .of_issuer (by simp)

theorem doSkipu_issueFree (u : Nat) : s.IssueFree (doSkipu p u s) := by
  unfold doSkipu
  split
  · exact .of_issuer (by simp)
  · split
    · exact .of_issuer (by simp)
    · dsimp only
      split
      · exact State.IssueFree.respond (.trans (.of_issuer (by simp)) (State.issueFree_trigger _)) _ _ _ _
      · exact .of_issuer (by simp)

theorem doGuard_issueFree (g : Nat) : s.IssueFree (doGuard p g s) := by
  unfold doGuard
  split
  · exact .of_issuer (by simp)
  · next held =>
    obtain ⟨heldA, heldB⟩ := not_or.mp held
    have a := Decidable.not_not.mp heldA
    have b := Decidable.not_not.mp heldB
    have set : s.IssueFree { s with issuer := { s.issuer with guard := g } } :=
      ⟨fun h => .refl (s.feed h), .inr fun h => by cases h <;> assumption⟩
    exact (set.trans (State.issueFree_trigger _)).respond ..

theorem doZrel_issueFree : s.IssueFree (doZrel p s) := by
  unfold doZrel
  split
  · exact .of_issuer (by simp)
  · exact (s.issueFree_releaseZone _ _).respond ..

theorem doCldone_issueFree : s.IssueFree (doCldone p s) :=
  State.IssueFree.respond (.trans (.of_issuer (by rfl)) (State.issueFree_trigger (s.setClamp .none))) _ _ _ _

theorem doRestart_issueFree : s.IssueFree (doRestart p s) := s.issueFree_discardWork.congr (by simp [doRestart])

end Commands

/-- The commands that may change a feed or the guard distance. -/
def changesIssuer : Cmd → Bool
  | .run | .halt | .next | .claim | .cancel | .freset | .clrstop | .psel | .zone | .skipu | .guard | .zrel | .cldone
  | .restart => true
  | _ => false

/-- Every other command leaves the issuer. -/
theorem carryOut_issuer {c : Cmd} (h : changesIssuer c = false) (p : PortId) (bs : List Byte) (s : State) :
    (carryOut c p bs s).issuer = s.issuer := by
  cases c <;> simp_all [changesIssuer, carryOut, withHead_issuer]

/-- A command at its taking issues nothing. -/
theorem carryOut_issueFree (c : Cmd) (p : PortId) (bs : List Byte) (s : State) : s.IssueFree (carryOut c p bs s) := by
  cases hc : changesIssuer c with
  | false => exact .of_issuer (carryOut_issuer hc p bs s)
  | true =>
    cases c <;> simp only [changesIssuer, reduceCtorEq] at hc
    case run => exact withHead_issueFree p fun h => doRun_issueFree p h s ..
    case halt => exact withHead_issueFree p fun h => doHalt_issueFree p h s
    case next => exact withHead_issueFree p fun h => doNext_issueFree p h s
    case claim => exact withHead_issueFree p fun h => doClaim_issueFree p h s ..
    case cancel => exact withHead_issueFree p fun h => doCancel_issueFree p h s _
    case freset => exact withHead_issueFree p fun h => doFreset_issueFree p h s
    case clrstop => exact withHead_issueFree p fun h => doClrstop_issueFree p h s
    case psel => exact doPsel_issueFree p s _
    case zone => exact doZone_issueFree p s _
    case skipu => exact doSkipu_issueFree p s _
    case guard => exact doGuard_issueFree p s _
    case zrel => exact doZrel_issueFree p s
    case cldone => exact doCldone_issueFree p s
    case restart => exact doRestart_issueFree p s

/-! ### Words and windows -/

theorem State.issueFree_sample (s : State) (c : ChanId) (x : Int) : s.IssueFree (s.sample c x) where
  feed h := by
    rcases s.feed_sample c x h with same | ⟨-, touched⟩
    · rw [same]; exact .refl _
    · rw [touched]; exact Feed.issueFree_touch _
  guard := .inl (by
    unfold State.sample State.deliverValue State.detectTouch
    dsimp only
    (repeat' split) <;> simp)

theorem doDataWord_issueFree (l : Link) (payload : W32) (s : State) : s.IssueFree (doDataWord l payload s) := by
  have samples : ∀ (xs : List (ChanId × Int)) (u : State), u.IssueFree (xs.foldl (fun s x => s.sample x.1 x.2) u) := by
    intro xs
    induction xs with
    | nil => exact .refl
    | cons x xs ih => exact fun u => (u.issueFree_sample x.1 x.2).trans (ih _)
  exact .trans (.of_issuer (State.goodWord_issuer s l id)) (samples _ _)

theorem State.issueFree_commit (s : State) (h : Head) (t : Ticket) (ph : Phase) (r : BondResult) :
    s.IssueFree (s.commit h t ph r) := by
  cases ph with
  | ball => exact .of_issuer (by simp [State.commit])
  | stitch => exact (State.issueFree_setFeed (Feed.issueFree_remove (s.feed h) t)).congr (by simp [State.commit, State.feed])

theorem State.issueFree_reportVerdict (s : State) (h : Head) (t : Ticket) (ph : Phase) (r : BondResult) (x y : Bool) :
    s.IssueFree (s.reportVerdict h t ph r x y) := by
  unfold State.reportVerdict
  split
  · exact (State.issueFree_setFeed (Feed.issueFree_stop (s.feed h) .fail)).congr (by simp)
  · exact .of_issuer (by simp)

theorem State.issueFree_closeBound (s : State) (h : Head) (w : Window) (t : Ticket) (ph : Phase) :
    s.IssueFree (s.closeBound h w t ph) := by
  have reported := fun r (c : BondCapture) => ((s.issueFree_commit h t ph r).congr (State.setCapture_issuer _ h c)).trans
    (State.issueFree_reportVerdict _ h t ph r w.z.long w.us.long)
  have checked := fun r c => (reported r c).congr ((State.checkClamp_issuer _).trans (State.checkComplete_issuer _))
  unfold State.closeBound
  dsimp only
  cases ph with
  | ball => exact checked _ _
  | stitch => exact (checked _ _).trans (State.issueFree_trigger _)

theorem State.issueFree_closeWindow (s : State) (h : Head) : s.IssueFree (s.closeWindow h) := by
  unfold State.closeWindow
  dsimp only
  split
  · exact .of_issuer (by simp)
  · split
    · exact .trans (.of_issuer (by simp)) (State.issueFree_closeBound _ _ _ _ _)
    · exact .of_issuer (by simp)
    · exact .of_issuer (by simp)

/-! ### Bytes -/

theorem State.issueFree_takeAtomic (s : State) (p : PortId) (c : Cmd) (bs : List Byte) :
    s.IssueFree (s.takeAtomic p c (carryOut c p bs)) := by
  unfold State.takeAtomic
  split
  · exact carryOut_issueFree c p bs s
  · exact .of_issuer (by simp)

theorem State.issueFree_paramByte (s : State) (p : PortId) (d : Byte) : s.IssueFree (s.paramByte p d) := by
  unfold State.paramByte
  dsimp only
  split
  case h_6 =>
    split
    · exact .of_issuer rfl
    · rw [State.setPort_setPort]
      exact .trans (.of_issuer (State.setPort_issuer ..)) (State.issueFree_takeAtomic _ _ _ _)
  all_goals exact .of_issuer (by (try split) <;> simp)

theorem State.issueFree_byteEvent (s : State) (p : PortId) (d : Byte) : s.IssueFree (s.byteEvent p d) := by
  unfold State.byteEvent
  split
  · exact .refl s
  · exact (s.issueFree_paramByte p d).congr (State.finish_issuer _ _)

theorem State.issueFree_deliver (s : State) (p : PortId) (bs : List Byte) : s.IssueFree (s.deliver p bs) := by
  induction bs generalizing s with
  | nil => exact .refl s
  | cons b bs ih => exact (s.issueFree_byteEvent p b).trans (ih _)

/-! ### Steps -/

/-- The serves: the only rows that issue a ticket. -/
def isServe : Instr → Bool
  | .arbiterServe | .fillServe => true
  | _ => false

theorem exec_issueFree {i : Instr} {s t : State} (other : isServe i = false) (e : exec i s = .next t) : s.IssueFree t := by
  cases hc : i.command? with
  | some x =>
    obtain ⟨p, c⟩ := x
    rw [exec_command hc] at e
    cases e
    refine State.IssueFree.congr ?_ (State.finish_issuer _ _)
    unfold State.atomicRow
    split
    · exact .refl s
    · exact .trans (.of_issuer (State.setPort_issuer ..)) (State.issueFree_takeAtomic _ _ _ _)
  | none =>
    cases i <;> simp only [Instr.command?, isServe, reduceCtorEq] at hc other
    case rst => cases e; exact s.issueFree_released _ _
    case readoutByte => cases e; exact s.issueFree_byteEvent _ _
    case wtxtTextByte => cases e; exact s.issueFree_deliver _ _
    case pwireGroup => cases e; exact s.issueFree_deliver _ _
    case pwire p slot =>
      simp only [exec, execPwire] at e
      split at e <;> cases e
      · exact s.issueFree_deliver _ _
      · exact .trans (.of_issuer (State.commandByte_issuer ..)) (State.issueFree_deliver _ _ _)
    case wtxt p _ _ _ _ =>
      simp only [exec, execWtxt] at e
      split at e <;> cases e
      · exact s.issueFree_deliver _ _
      · exact .trans (.of_issuer (State.commandByte_issuer ..)) (State.issueFree_deliver _ _ _)
    case unknownCommand =>
      simp only [exec, execUnknownCommand] at e
      split at e <;> cases e
      exact .of_issuer (by rw [State.finish_issuer]; split <;> simp)
    case commandByte =>
      simp only [exec, execCommandByte] at e
      split at e <;> cases e
      exact .of_issuer (by simp)
    case selectRelease =>
      simp only [exec, execSelectRelease] at e
      split at e <;> cases e
      exact .of_issuer (by simp)
    case windowClose =>
      cases e
      refine State.IssueFree.congr ?_ (State.finish_issuer _ _)
      split
      · exact s.issueFree_closeWindow _
      · exact .refl s
    case dataWord =>
      cases e
      refine State.IssueFree.congr ?_ (State.finish_issuer _ _)
      split
      · exact doDataWord_issueFree _ _ s
      · exact .refl s
    all_goals
      cases e
      exact .of_issuer (by (try split) <;> simp)

end Sys2Proof.Machine
end

section
/-! What a serve does to the feeds, and the three statements about every step: no issue while held or clamped (R48), the feed
law (R38, R40 to R42, R51) and the guard law (R47). -/

namespace Sys2Proof.Machine

/-! ### A ticket issued -/

theorem Feed.law_append {f : Feed} (law : f.law) {t : Ticket} (room : f.tickets.length < 4)
    (number : t.number = f.pickNumber) : (f.append t).law := by
  obtain ⟨one, four, -, distinct, bytes, next, latched, filling⟩ := law
  have picked := f.pickNumber_isNextFree next (by rw [List.length_map]; omega)
  rw [← number] at picked
  have byte : t.number < 256 := picked.lt (by decide)
  refine ⟨one, four, ?_, ?_, ?_, Nat.mod_lt _ (by decide), latched, fun fill => filling (Bool.and_eq_true_iff.mp fill).1⟩
  · rw [Feed.append, List.length_append]
    exact room
  · rw [Feed.append, List.map_append]
    refine List.nodup_append.mpr ⟨distinct, List.pairwise_singleton .., fun x held y new same => picked.1 ?_⟩
    rw [← List.mem_singleton.mp new, ← same]
    exact held
  · simp only [Feed.append, List.forall_mem_append, List.forall_mem_singleton]
    exact ⟨bytes, byte⟩

theorem Feed.issueFree_countIssue (f : Feed) (i : SlotId) : f.IssueFree (f.countIssue i) := by
  unfold Feed.countIssue
  dsimp only
  split
  · exact .of_parts (.refl _) rfl id nofun nofun
  · exact .of_parts (.refl _) rfl id id id

theorem State.issueFree_issueTo (s : State) (h : Head) (t : Ticket) : (s.grantTicket h t).IssueFree (s.issueTo h t) :=
  State.issueFree_setFeed (Feed.issueFree_countIssue _ _)

theorem State.issueFree_dropRequest (s : State) (h : Head) : s.IssueFree (s.dropRequest h) :=
  State.issueFree_setFeed ((s.feed h).issueFree_request none)

/-- A serve issues a slot of the map to a head: neither Hold Control nor the clamp bars it (R48), the list has room (R41, R48,
R55), the slot passes the guard test (R47), and nothing more is issued. -/
structure State.Issues (s : State) (h : Head) (m : StripMap) (i : SlotId) (t : State) : Prop where
  held : s.held = false
  clamp : s.tracker.clamp = .none
  room : (s.feed h).tickets.length < 4 ∨ (s.feed h).tickets.length < (s.feed h).depth
  free : s.guardFree m h i = true
  granted : (s.grantTicket h (s.ticketFor m h i)).IssueFree t

theorem State.Issues.congr {s t u : State} {h : Head} {m : StripMap} {i : SlotId} (x : s.Issues h m i t)
    (e : u.issuer = t.issuer) : s.Issues h m i u :=
  { x with granted := x.granted.congr e }

theorem State.issues_of_attempt {s : State} {h : Head} {m : StripMap} {i : SlotId} (hm : s.map = some m)
    (ok : s.attempt h = .ok i) : s.Issues h m i (s.issueTo h (s.ticketFor m h i)) := by
  obtain ⟨m', hm', -, held, clamp, -, room, found⟩ := State.attempt_eq_ok_iff.mp ok
  cases hm.symm.trans hm'
  have eligible := List.find?_some found
  exact ⟨held, clamp, .inr room, (Bool.and_eq_true_iff.mp eligible).2, s.issueFree_issueTo h _⟩

/-- A NEXT served issues nothing, or a slot. -/
theorem serveNext_issues (h : Head) (s : State) :
    s.IssueFree (serveNext h s) ∨ ∃ m i, s.Issues h m i (serveNext h s) := by
  unfold serveNext
  split
  · exact .inl (.of_issuer (by simp))
  · split
    · next m i hm ok => exact .inr ⟨m, i, (State.issues_of_attempt hm ok).congr (by simp)⟩
    · exact .inl (.of_issuer (by simp))
    · exact .inl (.refl s)

/-- A CLAIM served issues nothing, or its slot. -/
theorem serveClaim_issues (h : Head) (u w : Nat) (s : State) :
    s.IssueFree (serveClaim h u w s) ∨ ∃ m i, s.Issues h m i (serveClaim h u w s) := by
  unfold serveClaim
  split
  · exact .inl (.of_issuer (by simp))
  · next t ok =>
    obtain ⟨held, clamp, room, m, -, free, rfl⟩ := State.claimCheck_ok ok
    exact .inr ⟨m, ⟨u, w⟩, held, clamp, .inl room, free, .of_issuer (by simp)⟩

/-- A fill request served issues nothing, or a slot. -/
theorem serveFill_issues (h : Head) (s : State) :
    s.IssueFree (serveFill h s) ∨ ∃ m i, s.Issues h m i (serveFill h s) := by
  unfold serveFill
  split
  · next m i hm ok => exact .inr ⟨m, i, (State.issues_of_attempt hm ok).congr (by simp)⟩
  · exact .inl (State.issueFree_setFeed (s.feed h).issueFree_withdraw)

/-- What a step may do to the feeds: it issues nothing, or, where nothing bars issue, one slot to one head. -/
def State.FeedStep (s t : State) : Prop :=
  s.IssueFree t ∨ (s.held = false ∧ s.tracker.clamp = .none) ∧ ∃ u h m i, s.IssueFree u ∧ u.Issues h m i t

theorem State.FeedStep.congr {s t u : State} (x : s.FeedStep t) (e : u.issuer = t.issuer) : s.FeedStep u := by
  rcases x with free | ⟨unbarred, v, h, m, i, free, issues⟩
  · exact .inl (free.congr e)
  · exact .inr ⟨unbarred, v, h, m, i, free, issues.congr e⟩

theorem State.FeedStep.of_serve {s u t : State} {h : Head} (free : s.IssueFree u) (hold : u.hold = s.hold)
    (tracker : u.tracker = s.tracker) (served : u.IssueFree t ∨ ∃ m i, u.Issues h m i t) : s.FeedStep t := by
  rcases served with nothing | ⟨m, i, issues⟩
  · exact .inl (free.trans nothing)
  · have held : s.held = u.held := by rw [State.held, State.held, hold]
    exact .inr ⟨⟨held.trans issues.held, tracker ▸ issues.clamp⟩, u, h, m, i, free, issues⟩

theorem doArbiterServe_feedStep (s : State) : s.FeedStep (doArbiterServe s) := by
  unfold doArbiterServe
  split
  · exact .inl (.refl s)
  · next h _ =>
    have dropped := s.issueFree_dropRequest h
    split
    · exact .of_serve dropped rfl rfl (serveNext_issues h _)
    · exact .of_serve dropped rfl rfl (serveClaim_issues h _ _ _)
    · exact .inl (.refl s)

theorem doFillServe_feedStep (s : State) : s.FeedStep (doFillServe s) := by
  unfold doFillServe
  split
  · exact .inl (.refl s)
  · split
    · exact .inl (.refl s)
    · exact .of_serve (.refl s) rfl rfl (serveFill_issues _ s)

theorem exec_feedStep {i : Instr} {s t : State} (e : exec i s = .next t) : s.FeedStep t := by
  cases serve : isServe i with
  | false => exact .inl (exec_issueFree serve e)
  | true =>
    cases i <;> simp only [isServe, reduceCtorEq] at serve
    case arbiterServe => cases e; exact (doArbiterServe_feedStep s).congr (State.finish_issuer _ _)
    case fillServe => cases e; exact (doFillServe_feedStep s).congr (State.finish_issuer _ _)

theorem step_feedStep {s t : State} (e : step s = .next t) : s.FeedStep t := by
  unfold step at e
  split at e
  · cases e
    exact .inl (.refl s)
  · next i rest _ =>
    rcases exec_feedStep e with free | ⟨unbarred, u, h, m, i, free, issues⟩
    · exact .inl ⟨free.feed, free.guard⟩
    · exact .inr ⟨unbarred, u, h, m, i, ⟨free.feed, free.guard⟩, issues⟩

/-- Settles O28: only a serve issues, and no serve issues while issue is held or the clamp state is not NONE. -/
theorem noIssueWhileHeldOrClamped : Obligations.NoIssueWhileHeldOrClamped := by
  intro s t e barred h x hx
  rcases step_feedStep e with free | ⟨⟨held, clamp⟩, -⟩
  · exact (free.feed h).tickets.subset hx
  · obtain ⟨noReason, enabled⟩ := s.held_eq_false_iff.mp held
    exact absurd barred (by simp [noReason, enabled, clamp])

/-! ### The feed law -/

theorem State.IssueFree.feedLaw {s t : State} (x : s.IssueFree t) (law : s.feedLaw) : t.feedLaw :=
  fun h => (x.feed h).law (law h)

theorem State.Issues.feedLaw {s t : State} {h : Head} {m : StripMap} {i : SlotId} (x : s.Issues h m i t)
    (law : s.feedLaw) : t.feedLaw := by
  refine x.granted.feedLaw fun k => ?_
  rw [State.feed_grantTicket]
  split
  · obtain ⟨-, four, -⟩ := law h
    exact Feed.law_append (law h) (x.room.elim id (Nat.lt_of_lt_of_le · four)) rfl
  · exact law k

/-- Settles O54, by what a step may do to the feeds. -/
theorem stepKeepsFeedLaw : Obligations.StepKeepsFeedLaw := by
  intro s t law e
  rcases step_feedStep e with free | ⟨-, u, h, m, i, free, issues⟩
  · exact free.feedLaw law
  · exact issues.feedLaw (free.feedLaw law)

/-! ### The guard law -/

theorem distance_comm (x y : Nat) : distance x y = distance y x := Nat.add_comm _ _

/-- The guard law from either head's side. -/
theorem State.guardLaw_iff (s : State) (h : Head) :
    s.guardLaw ↔ ∀ x ∈ (s.feed h).tickets, guardPasses s.issuer.guard x.absX (s.feed h.other).tickets = true := by
  simp only [guardPasses, List.all_eq_true, decide_eq_true_eq]
  cases h with
  | a => exact .rfl
  | b => exact ⟨fun law y hy x hx => distance_comm x.absX y.absX ▸ law x hx y hy,
      fun law x hx y hy => distance_comm y.absX x.absX ▸ law y hy x hx⟩

theorem State.IssueFree.guardLaw {s t : State} (free : s.IssueFree t) (law : s.guardLaw) : t.guardLaw := by
  intro x hx y hy
  rcases free.guard with same | empty
  · rw [same]
    exact law x ((free.feed .a).tickets.subset hx) y ((free.feed .b).tickets.subset hy)
  · rw [empty] at hx
    nomatch hx

theorem State.Issues.guardLaw {s t : State} {h : Head} {m : StripMap} {i : SlotId} (x : s.Issues h m i t)
    (law : s.guardLaw) : t.guardLaw := by
  refine x.granted.guardLaw ((State.guardLaw_iff _ h).mpr ?_)
  simp only [State.feed_grantTicket, if_true, if_neg (head_other_ne h), Feed.append, List.forall_mem_append,
    List.forall_mem_singleton]
  exact ⟨(s.guardLaw_iff h).mp law, x.free⟩

/-- Settles O55, by what a step may do to the feeds. -/
theorem stepKeepsGuardLaw : Obligations.StepKeepsGuardLaw := by
  intro s t law e
  rcases step_feedStep e with free | ⟨-, u, h, m, i, free, issues⟩
  · exact free.guardLaw law
  · exact issues.guardLaw (free.guardLaw law)

end Sys2Proof.Machine
end

section
/-! The commands of a feed at their taking: RUN, HALT, HSTAT, GUARD, CLRSTOP, NEXT and CLAIM (R43, R45, R49, R59, R60, R89,
R165, R188). -/

namespace Sys2Proof.Machine

section HeadCommand

variable {h : Head} {s : State} {i : Instr} {c : Cmd} {g : Head → State → State}

/-- A command of a head answers what it does at its taking. -/
theorem Answers.of_head {u : State → State} {r : CmdResult} {d : Nat} {data : List Byte}
    (hc : i.command? = some (h.port, c))
    (he : exec i s = .next (s.finish (s.atomicRow h.port c (paramBytes i) (withHead h.port g)))) (hears : s.hears h.port)
    (accepts : h.port.accepts c = true) (does : g h (s.taking i) = (u (s.taking i)).respond h.port r d data) :
    Answers i s u r d data :=
  .of_carryOut hc he hears accepts ((withHead_port ..).trans does)

theorem Refuses.of_head {r : CmdResult} {d : Nat} (hc : i.command? = some (h.port, c))
    (he : exec i s = .next (s.finish (s.atomicRow h.port c (paramBytes i) (withHead h.port g)))) (hears : s.hears h.port)
    (accepts : h.port.accepts c = true) (does : g h (s.taking i) = (s.taking i).respond h.port r d []) :
    Refuses i s r d :=
  Answers.of_head (u := id) hc he hears accepts does

end HeadCommand

/-! ### RUN -/

theorem runOk_iff (traversal fixedUnit order delivery depth : Nat) :
    runOk traversal fixedUnit order delivery depth = true ↔
      traversal ≤ 2 ∧ (traversal = 2 → fixedUnit ≤ 63) ∧ order ≤ 1 ∧ delivery ≤ 1 ∧ 1 ≤ depth ∧ depth ≤ 4 :=
  decide_eq_true_iff

theorem Delivery.ofCode_eq_push {n : Nat} (h : n ≤ 1) : (Delivery.ofCode n == .push) = decide (n = 1) := by
  obtain rfl | rfl : n = 0 ∨ n = 1 := by omega
  all_goals rfl

theorem State.askEnable_sets {s : State} (empty : s.hold.reasons = .empty) (clear : s.hold.enable = false) :
    s.askEnable = { s with hold := { s.hold with enable := true } }.postAll
      (.hold 6 .empty true .empty .empty (s.hold.code != 0)) := by
  rw [State.askEnable, if_pos ⟨empty, clear⟩, State.postHold, empty]
  rfl

theorem State.askEnable_unchanged {s : State} (h : s.hold.reasons ≠ .empty ∨ s.hold.enable = true) : s.askEnable = s :=
  if_neg fun ⟨empty, clear⟩ => h.elim (· empty) fun set => nomatch clear.symm.trans set

section Run

variable {p : PortId} {count traversal fixedUnit order delivery depth : Nat} {h : Head} {s : State}

theorem doRun_of_bad (bad : runOk traversal fixedUnit order delivery depth = false) :
    doRun p count traversal fixedUnit order delivery depth h s = s.respond p .range 0 [] := by
  rw [doRun, if_pos (by rw [bad]; rfl)]
  rfl

theorem doRun_of_latch (ok : runOk traversal fixedUnit order delivery depth = true) (latch : (s.feed h).latch = true) :
    doRun p count traversal fixedUnit order delivery depth h s = s.respond p .state 3 [] := by
  rw [doRun, if_neg (by rw [ok]; exact nofun), if_pos latch]
  rfl

theorem doRun_runs (ok : runOk traversal fixedUnit order delivery depth = true) (latch : (s.feed h).latch = false) :
    doRun p count traversal fixedUnit order delivery depth h s =
      (s.setFeed h ((s.feed h).run count traversal fixedUnit order delivery depth)).askEnable.trigger.respond p .ok
        (if s.hold.reasons = .empty ∧ s.hold.enable = false then 1 else 0) [] := by
  rw [doRun, if_neg (by rw [ok]; exact nofun), if_neg (by rw [latch]; exact nofun)]

end Run

/-- Settles O21, by the branches of RUN and of the request for the issue enable. -/
theorem runStartsTheFeed : Obligations.RunStartsTheFeed := by
  intro h count trav fu ord del dep s hears ok f
  have okIff := runOk_iff trav.toNat fu.toNat ord.toNat del.toNat dep.toNat
  have accepts : h.port.accepts .run = true := by cases h <;> rfl
  have run (fine : ok) :
      (s.feed h).run count.toNat trav.toNat fu.toNat ord.toNat del.toNat dep.toNat = f := by
    simp only [Feed.run, Delivery.ofCode_eq_push fine.2.2.2.1]
    rfl
  refine ⟨fun bad => ?_, fun fine latch => ?_, fun fine latch empty clear => ?_, fun fine latch reason => ?_⟩
  · exact .of_head rfl rfl hears accepts (doRun_of_bad (Bool.eq_false_iff.mpr (mt okIff.mp bad)))
  · exact .of_head rfl rfl hears accepts (doRun_of_latch (okIff.mpr fine) (by simpa using latch))
  · refine .of_head rfl rfl hears accepts ?_
    rw [doRun_runs (okIff.mpr fine) (by simpa using latch), State.askEnable_sets (by simpa using empty) (by simpa using clear),
      if_pos (by simpa using ⟨empty, clear⟩), State.taking_feed, run fine]
    simp
  · refine .of_head rfl rfl hears accepts ?_
    rw [doRun_runs (okIff.mpr fine) (by simpa using latch), State.askEnable_unchanged (by simpa using reason), if_neg,
      State.taking_feed, run fine]
    simp only [State.taking_hold]
    exact fun ⟨empty, clear⟩ => reason.elim (· empty) fun set => nomatch clear.symm.trans set

/-! ### HALT, HSTAT, GUARD and CLRSTOP -/

theorem State.attempt_taking (s : State) (i : Instr) (h : Head) : (s.taking i).attempt h = s.attempt h :=
  State.attempt_congr (State.taking_map ..) (State.taking_programs ..) (State.taking_hold ..)
    (by rw [State.taking_tracker]) (by rw [State.taking_issuer]) h (by rw [State.taking_feed]) (by rw [State.taking_feed])

theorem b8_feedState_code (x : FeedState) :
    b8 x.code = (match x with | .off => 0 | .running => 1 | .stopped _ => 2 : Byte) := by cases x <;> rfl

theorem b8_feedState_reasonCode (x : FeedState) :
    b8 x.reasonCode = (match x with | .stopped .fail => 1 | .stopped .touch => 2 | _ => 0 : Byte) := by
  rcases x with _ | _ | (_ | _) <;> rfl

theorem flag8_eq (x : Bool) : flag8 x = if x then 1 else 0 := by cases x <;> rfl

theorem b8_issueReason (s : State) (h : Head) :
    b8 (s.issueReason h) = (match s.attempt h with | .ok _ => 0 | .error why => b8 why.code : Byte) := by
  unfold State.issueReason
  cases s.attempt h <;> rfl

theorem Feed.trigger_eq_ite (f : Feed) :
    f.trigger = if f.state = .running ∧ f.delivery = .push then { f with fill := true } else f := by
  simp [Feed.trigger, Feed.pushing]

/-- Settles O22, command by command. -/
theorem haltHstatGuardClrstop : Obligations.HaltHstatGuardClrstop := by
  refine ⟨fun h s hears => ⟨?_, ?_⟩, fun s => ⟨fun g hears held => ?_, fun g hears a b => ?_, fun h hears above => ?_,
    fun h hears z us => ?_, fun h => ?_, ⟨_, rfl⟩⟩⟩
  · refine .of_head (g := doHalt h.port) rfl rfl hears (by cases h <;> rfl) ?_
    rw [doHalt, State.taking_feed, b8_feedState_code]
    rfl
  · refine .of_head (g := doHstat h.port) rfl rfl hears (by cases h <;> rfl) ?_
    rw [doHstat, State.hstatData, State.taking_feed, b8_feedState_code, b8_feedState_reasonCode, b8_issueReason,
      State.attempt_taking, flag8_eq, flag8_eq]
    rfl
  · refine .of_carryOut rfl rfl hears rfl ?_
    rw [doGuard, if_pos (by simpa using held)]
  · refine .of_carryOut rfl rfl hears rfl ?_
    rw [doGuard, if_neg (by simp [a, b]), State.taking_issuer]
  · refine .of_head (g := doClrstop h.port) rfl rfl hears (by cases h <;> rfl) ?_
    simp only [doClrstop, State.taking_chan]
    rw [if_pos above]
    rfl
  · refine .of_head (g := doClrstop h.port) rfl rfl hears (by cases h <;> rfl) ?_
    simp only [doClrstop, State.taking_chan, State.taking_feed]
    rw [if_neg (by omega), z, us]
    rfl
  · rw [State.feed_trigger, Feed.trigger_eq_ite]

/-! ### NEXT and CLAIM -/

section Wait

variable {p : PortId} {h : Head} {s : State}

theorem doNext_of_busy (busy : (s.feed h).request ≠ none) : doNext p h s = s.respond p .busy 0 [] :=
  if_pos (Option.isSome_iff_ne_none.mpr busy)

theorem doNext_of_push (idle : (s.feed h).request = none) (push : (s.feed h).delivery = .push) :
    doNext p h s = s.respond p .state 4 [] := by
  rw [doNext, if_neg (by simp [idle]), if_pos push]
  rfl

theorem doNext_waits (idle : (s.feed h).request = none) (pull : (s.feed h).delivery = .pull) :
    doNext p h s = s.waitFor p h .next := by
  rw [doNext, if_neg (by simp [idle]), if_neg (by simp [pull])]

theorem doClaim_of_busy {u w : Nat} (busy : (s.feed h).request ≠ none) : doClaim p u w h s = s.respond p .busy 0 [] :=
  if_pos (Option.isSome_iff_ne_none.mpr busy)

theorem doClaim_waits {u w : Nat} (idle : (s.feed h).request = none) :
    doClaim p u w h s = s.waitFor p h (.claim u w) :=
  if_neg (by simp [idle])

end Wait

/-- The row of an accepted command is what the command does at its taking. -/
theorem exec_taking {i : Instr} {s : State} {p : PortId} {c : Cmd} {f : State → State} (hc : i.command? = some (p, c))
    (he : exec i s = .next (s.finish (s.atomicRow p c (paramBytes i) f))) (hears : s.hears p)
    (accepts : p.accepts c = true) : exec i s = .next (s.finish (f (s.taking i))) := by
  have taken : s.taking i = s.setPort p ((s.port p).atTaking c (paramBytes i)) := by simp only [State.taking, hc]
  rw [he, State.atomicRow, if_neg (by rw [hears]; exact nofun), State.takeAtomic, if_pos accepts, taken]

/-- Settles O23, by the checks of NEXT and CLAIM at their taking. -/
theorem nextAndClaimWait : Obligations.NextAndClaimWait := by
  intro h unit wire s hears
  have next : h.port.accepts .next = true := by cases h <;> rfl
  have claim : h.port.accepts .claim = true := by cases h <;> rfl
  refine ⟨fun busy => ⟨?_, ?_⟩, fun idle push => ?_, fun idle pull => ?_, fun idle => ?_⟩
  · exact .of_head rfl rfl hears next (doNext_of_busy (by rwa [State.taking_feed]))
  · exact .of_head rfl rfl hears claim (doClaim_of_busy (by rwa [State.taking_feed]))
  · exact .of_head rfl rfl hears next (doNext_of_push (by rwa [State.taking_feed]) (by rwa [State.taking_feed]))
  · rw [exec_taking rfl rfl hears next, withHead_port,
      doNext_waits (by rwa [State.taking_feed]) (by rwa [State.taking_feed]), State.waitFor, State.taking_feed]
    rfl
  · rw [exec_taking rfl rfl hears claim, withHead_port, doClaim_waits (by rwa [State.taking_feed]), State.waitFor,
      State.taking_feed]
    rfl

end Sys2Proof.Machine
end

section
/-! CANCEL and FRESET at their taking (R57, R58), and the cancellation of one ticket part by part (R57, R111, R112). -/

namespace Sys2Proof.Machine

/-! ### The cancellation of one ticket -/

theorem BondCapture.cut_eq (c : BondCapture) (t : Ticket) (why : StrayReason) :
    c.cut t why = { c with
      armed := match c.armed with
        | some a => if a.ticket = t then none else some a
        | none => none
      window := match c.window with
        | some w => some { w with binding := match w.binding with
            | .bound t' ph => if t' = t then .stray why t.number ph else .bound t' ph
            | b => b }
        | none => none } := by
  have armed : (c.cut t why).armed = match c.armed with
      | some a => if a.ticket = t then none else some a
      | none => none := by
    unfold BondCapture.cut
    cases c.armed with
    | none => rfl
    | some a => by_cases e : a.ticket = t <;> simp [Option.filter, e]
  have window : (c.cut t why).window = match c.window with
      | some w => some { w with binding := match w.binding with
          | .bound t' ph => if t' = t then .stray why t.number ph else .bound t' ph
          | b => b }
      | none => none := by
    unfold BondCapture.cut
    rcases c.window with _ | ⟨binding, _, _, _, _, _⟩
    · rfl
    · cases binding with
      | bound t' ph => by_cases e : t' = t <;> simp [e]
      | stray => rfl
      | silenced => rfl
  calc c.cut t why = { c with armed := (c.cut t why).armed, window := (c.cut t why).window } := rfl
    _ = _ := by rw [armed, window]

theorem State.cancelTicket_eq {s : State} {h : Head} {why : StrayReason} {t : Ticket} {c : BondCapture}
    (cut : (s.capture h).cut t why = c) :
    s.cancelTicket h why t
      = ({ s with
            map := s.map.map (fun m => m.request t.unit t.wire (requestRelease h t.number t.tier))
            issuer := { s.issuer with
              feeds := s.issuer.feeds.set h { s.feed h with tickets := (s.feed h).tickets.erase t } }
            bond := s.bond.set h c } : State).checkComplete.checkClamp := by
  rw [← cut]
  rfl

/-! ### What a cancellation does to the map -/

/-- The map after the test for completion (R34). -/
def StripMap.checked (m : StripMap) : StripMap :=
  if !m.complete && m.unitsFinished == m.units.length then { m with complete := true } else m

theorem State.checkComplete_map (s : State) : s.checkComplete.map = s.map.map StripMap.checked := by
  unfold State.checkComplete
  cases hm : s.map with
  | none => exact hm
  | some m =>
    dsimp only [Option.map_some, StripMap.checked]
    split
    · rfl
    · exact hm

theorem State.cancelTicket_map (s : State) (h : Head) (why : StrayReason) (t : Ticket) :
    (s.cancelTicket h why t).map
      = (s.map.map fun m => m.request t.unit t.wire (requestRelease h t.number t.tier)).map StripMap.checked := by
  rw [State.cancelTicket_eq rfl, State.checkClamp_map, State.checkComplete_map]

theorem State.cancelTicket_map_congr {s u : State} (same : s.map = u.map) (h : Head) (why : StrayReason) (t : Ticket) :
    (s.cancelTicket h why t).map = (u.cancelTicket h why t).map := by
  rw [State.cancelTicket_map, State.cancelTicket_map, same]

/-- What cancellations do to the map depends on the map only. -/
theorem State.cancelAll_map_congr {s u : State} (same : s.map = u.map) (h : Head) (why : StrayReason) (ts : List Ticket) :
    (ts.foldl (fun s t => s.cancelTicket h why t) s).map = (ts.foldl (fun s t => s.cancelTicket h why t) u).map := by
  induction ts generalizing s u with
  | nil => exact same
  | cons t ts ih => exact ih (State.cancelTicket_map_congr same h why t)

theorem State.slotCode_congr {s u : State} (same : s.map = u.map) : s.slotCode = u.slotCode := by
  funext t
  rw [State.slotCode, State.slotCode, same]

/-! ### CANCEL and FRESET -/

section Cancel

variable {p : PortId} {h : Head} {s : State}

theorem doCancel_of_unknown {n : Nat} (unknown : (s.feed h).find n = none) : doCancel p n h s = s.respond p .notFound 0 [] := by
  rw [doCancel, unknown]
  rfl

theorem doCancel_cancels {n : Nat} {t : Ticket} (found : (s.feed h).find n = some t) :
    doCancel p n h s = (s.cancelTicket h .cancelled t).trigger.respond p .ok 0
      ([b8 t.unit] ++ be16 t.wire ++ [b8 ((s.cancelTicket h .cancelled t).slotCode t)]) := by
  rw [doCancel, found]

theorem doFreset_of_empty (empty : (s.feed h).tickets = []) :
    doFreset p h s
      = (s.setFeed h { s.feed h with state := .off, fill := false, cursor := none }).respond p .ok 0 [0, 0, 0, 0] := by
  simp only [doFreset, Feed.turnOff, empty, List.foldl_nil, List.isEmpty_nil, if_true]
  rfl

theorem doFreset_cancels (held : (s.feed h).tickets ≠ []) :
    let all := (s.feed h).tickets.foldl (fun u t => u.cancelTicket h .freset t) s
    let count := fun (c : Nat) => b8 ((s.feed h).tickets.countP (fun t => all.slotCode t == c))
    doFreset p h s
      = (all.setFeed h { all.feed h with state := .off, fill := false, cursor := none }).trigger.respond p .ok 0
        [b8 (s.feed h).tickets.length, count 0, count 4, count 3] := by
  simp only [doFreset, List.isEmpty_iff, held, if_false]
  rfl

end Cancel

/-- Settles O29, by the ticket found and by the tickets in the list. -/
theorem cancelAndFreset : Obligations.CancelAndFreset := by
  intro h s hears
  have cancel : h.port.accepts .cancel = true := by cases h <;> rfl
  have freset : h.port.accepts .freset = true := by cases h <;> rfl
  refine ⟨fun n unknown => ?_, fun n t found => ?_, fun empty => ?_, fun held => ?_, fun t why => ?_⟩
  · refine .of_head rfl rfl hears cancel (doCancel_of_unknown ?_)
    simpa [Feed.find] using unknown
  · refine .of_head rfl rfl hears cancel ?_
    rw [doCancel_cancels (by rwa [State.taking_feed]),
      State.slotCode_congr (State.cancelTicket_map_congr (State.taking_map s _) h .cancelled t)]
  · refine .of_head (g := doFreset h.port) rfl rfl hears freset ?_
    rw [doFreset_of_empty (by rwa [State.taking_feed]), State.taking_feed]
  · intro all count
    refine .of_head (g := doFreset h.port) rfl rfl hears freset ?_
    rw [doFreset_cancels (by rwa [State.taking_feed]), State.taking_feed,
      State.slotCode_congr (State.cancelAll_map_congr (State.taking_map s _) h .freset _)]
  · exact State.cancelTicket_eq (BondCapture.cut_eq _ t why)

end Sys2Proof.Machine
end

section
/-! The serves of the arbiter (R44, R48 to R56): whose turn it is, a NEXT, a CLAIM and a fill request served. -/

namespace Sys2Proof.Machine

/-! ### The turn -/

@[simp] theorem Head.other_other (h : Head) : h.other.other = h := by cases h <;> rfl

theorem Head.other_of_ne {h k : Head} (ne : k ≠ h) : k.other = h := by
  revert ne
  cases h <;> cases k <;> decide

/-- A head with a request waiting is served unless it was served last and the other head waits too (R53). -/
theorem State.turn_eq_some {s : State} {h : Head} (waits : (s.feed h).waits = true)
    (first : s.issuer.lastServed = h → (s.feed h.other).request = none ∧ (s.feed h.other).fill = false) :
    s.turn = some h := by
  by_cases last : s.issuer.lastServed = h
  · obtain ⟨idle, empty⟩ := first last
    have other : (s.feed h.other).waits = false := by simp [Feed.waits, idle, empty]
    simp [State.turn, last, other, waits]
  · simp [State.turn, Head.other_of_ne last, waits]

section Turn

variable {s : State} {h : Head}
  (first : s.issuer.lastServed = h → (s.feed h.other).request = none ∧ (s.feed h.other).fill = false)
include first

theorem exec_arbiterServe_next (request : (s.feed h).request = some .next) :
    exec .arbiterServe s = .next (s.finish (serveNext h (s.dropRequest h))) := by
  have turn := State.turn_eq_some (h := h) (by simp [Feed.waits, request]) first
  simp only [exec, execArbiterServe, doArbiterServe, turn, request]

theorem exec_arbiterServe_claim {u w : Nat} (request : (s.feed h).request = some (.claim u w)) :
    exec .arbiterServe s = .next (s.finish (serveClaim h u w (s.dropRequest h))) := by
  have turn := State.turn_eq_some (h := h) (by simp [Feed.waits, request]) first
  simp only [exec, execArbiterServe, doArbiterServe, turn, request]

theorem exec_fillServe (idle : (s.feed h).request = none) (fill : (s.feed h).fill = true) :
    exec .fillServe s = .next (s.finish (serveFill h s)) := by
  have turn := State.turn_eq_some (h := h) (by simp [Feed.waits, fill]) first
  simp only [exec, execFillServe, doFillServe, turn, idle]

end Turn

/-! ### The state after an issue -/

theorem State.dropRequest_feed_self (s : State) (h : Head) :
    (s.dropRequest h).feed h = { s.feed h with request := none } := by rw [State.feed_dropRequest, if_pos rfl]

theorem State.ticketFor_dropRequest (s : State) (m : StripMap) (h : Head) (i : SlotId) :
    (s.dropRequest h).ticketFor m h i = s.ticketFor m h i := by
  rw [State.ticketFor, State.dropRequest_feed_self]
  rfl

theorem State.claimCheck_dropRequest (s : State) (h : Head) (u w : Nat) :
    (s.dropRequest h).claimCheck h u w = s.claimCheck h u w := by
  have tickets : ((s.dropRequest h).feed h).tickets = (s.feed h).tickets := by rw [State.dropRequest_feed_self]
  have free (m : StripMap) (i : SlotId) : (s.dropRequest h).guardFree m h i = s.guardFree m h i :=
    State.guardFree_congr (s := s.dropRequest h) (t := s) rfl rfl h (by cases h <;> rfl) m i
  unfold State.claimCheck
  simp only [tickets, free, State.ticketFor_dropRequest]
  rfl

theorem State.grantTicket_eq {s : State} {m : StripMap} (hm : s.map = some m) (h : Head) (t : Ticket) :
    s.grantTicket h t = { s with
      map := some (m.request t.unit t.wire (requestIssue h t.number))
      issuer := { s.issuer with lastServed := h, feeds := s.issuer.feeds.set h ((s.feed h).append t) } } := by
  simp only [State.grantTicket, State.onMap, hm, Option.map_some]
  rfl

theorem State.issueTo_eq {s : State} {m : StripMap} (hm : s.map = some m) (h : Head) (t : Ticket) :
    s.issueTo h t = { s with
      map := some (m.request t.unit t.wire (requestIssue h t.number))
      issuer := { s.issuer with
        lastServed := h
        feeds := s.issuer.feeds.set h (((s.feed h).append t).countIssue ⟨t.unit, t.wire⟩) } } := by
  rw [State.issueTo, State.grantTicket_eq hm]
  simp [State.setFeed, State.feed]

/-- The feed of a head after an issue by NEXT or a push pass (R44, R48, R51). -/
theorem Feed.issued_eq {f : Feed} (running : f.state = .running) (room : f.tickets.length < f.depth) (t : Ticket)
    (i : SlotId) :
    (f.append t).countIssue i = { f with
      tickets := f.tickets ++ [t]
      nextNumber := (t.number + 1) % 256
      cursor := some i
      count := f.count - 1
      state := if decide (f.count = 1) then .off else .running
      fill := f.fill && !decide (f.count = 1) && decide (f.tickets.length + 1 < f.depth) } := by
  have full : (f.tickets.length + 1 ≠ f.depth) ↔ f.tickets.length + 1 < f.depth := by omega
  by_cases last : f.count = 1
  · simp [Feed.countIssue, Feed.append, Feed.turnOff, last]
  · simp [Feed.countIssue, Feed.append, last, running, full]

/-- The state after an issue by NEXT or a push pass (R44, R48, R53). -/
theorem State.issueTo_running {s : State} {m : StripMap} (hm : s.map = some m) {h : Head}
    (running : (s.feed h).state = .running) (room : (s.feed h).tickets.length < (s.feed h).depth) (t : Ticket) :
    s.issueTo h t = { s with
      map := some (m.request t.unit t.wire (requestIssue h t.number))
      issuer := { s.issuer with
        lastServed := h
        feeds := s.issuer.feeds.set h { s.feed h with
          tickets := (s.feed h).tickets ++ [t]
          nextNumber := (t.number + 1) % 256
          cursor := some ⟨t.unit, t.wire⟩
          count := (s.feed h).count - 1
          state := if decide ((s.feed h).count = 1) then .off else .running
          fill := (s.feed h).fill && !decide ((s.feed h).count = 1)
            && decide ((s.feed h).tickets.length + 1 < (s.feed h).depth) } } } := by
  rw [State.issueTo_eq hm, Feed.issued_eq running room]

theorem State.issueTo_tickets (s : State) (h : Head) (t : Ticket) :
    ((s.issueTo h t).feed h).tickets.length = (s.feed h).tickets.length + 1 := by
  have tickets (f : Feed) (i : SlotId) : (f.countIssue i).tickets = f.tickets := by
    unfold Feed.countIssue
    dsimp only
    split <;> rfl
  rw [State.feed_issueTo, if_pos rfl, tickets, Feed.append, List.length_append]
  rfl

theorem State.postRunEnd_issueTo (s : State) (h : Head) (t : Ticket) (ended : Bool) :
    (s.issueTo h t).postRunEnd h ended =
      if ended then (s.issueTo h t).post h.port (.runEnd ((s.feed h).tickets.length + 1)) else s.issueTo h t := by
  rw [State.postRunEnd, State.issueTo_tickets]

/-- The state after a NEXT that was waiting has been issued a ticket. -/
theorem State.issueTo_dropRequest {s : State} {m : StripMap} (hm : s.map = some m) {h : Head}
    (running : (s.feed h).state = .running) (room : (s.feed h).tickets.length < (s.feed h).depth) (t : Ticket) :
    (s.dropRequest h).issueTo h t = { s.setFeed h { s.feed h with request := none } with
      map := some (m.request t.unit t.wire (requestIssue h t.number))
      issuer := { s.issuer with
        lastServed := h
        feeds := s.issuer.feeds.set h { s.feed h with
          request := none
          tickets := (s.feed h).tickets ++ [t]
          nextNumber := (t.number + 1) % 256
          cursor := some ⟨t.unit, t.wire⟩
          count := (s.feed h).count - 1
          state := if decide ((s.feed h).count = 1) then .off else .running
          fill := (s.feed h).fill && !decide ((s.feed h).count = 1)
            && decide ((s.feed h).tickets.length + 1 < (s.feed h).depth) } } } := by
  rw [State.issueTo_running (s := s.dropRequest h) hm (by rwa [State.dropRequest_feed_self])
    (by rwa [State.dropRequest_feed_self]), State.dropRequest_feed_self]
  simp only [State.dropRequest, State.setFeed_issuer, PerHead.set_set]

theorem State.post_framing (s : State) (p q : PortId) (n : Notice) :
    ((s.post p n).port q).framing = (s.port q).framing := by
  rw [State.post, State.port_setPort]
  split
  · next same =>
    rw [same, Port.enqueue]
    split <;> rfl
  · rfl

theorem State.postRunEnd_framing (s : State) (h : Head) (ended : Bool) (q : PortId) :
    ((s.postRunEnd h ended).port q).framing = (s.port q).framing := by
  cases ended
  · rfl
  · exact s.post_framing _ _ _

theorem State.loadResponse_eq {s t : State} {p : PortId} (same : (t.port p).framing = (s.port p).framing) (r : CmdResult)
    (d : Nat) (data : List Byte) :
    t.loadResponse p r d data = if (s.port p).framing = .waiting then t.respond p r d data else t := by
  rw [State.loadResponse, same]

/-! ### What the scan decides -/

section Scanned

variable {s : State} {m : StripMap} {h : Head} (ineligible : ∀ i ∈ s.scanFor m h, s.eligible m h i = false)
include ineligible

theorem State.scanned_of_ineligible :
    s.scanned m h =
      if ∃ i ∈ s.scanFor m h, m.isOpen i = true ∧ m.tierReady (s.boundProgram m) i = true ∧ s.guardFree m h i = false then
        .error .guard
      else if ∃ i ∈ s.scanFor m h, m.isOpen i = true ∧ s.guardFree m h i = true
          ∧ m.tierReady (s.boundProgram m) i = false then .error .tierWait
      else .error .noWire := by
  have found : (s.scanFor m h).find? (s.eligible m h) = none := by simpa using ineligible
  simp [State.scanned, found, and_assoc]

end Scanned

/-! ### NEXT -/

section Next

variable {s : State} {h : Head}

theorem serveNext_of_push (push : (s.feed h).delivery = .push) :
    serveNext h s = s.loadResponse h.port .state 4 [] := if_pos push

theorem serveNext_of_error (pull : (s.feed h).delivery = .pull) {why : NoneReason} (error : s.attempt h = .error why) :
    serveNext h s = s.loadResponse h.port .none why.code [] := by
  rw [serveNext, if_neg (by simp [pull]), error]
  cases s.map <;> rfl

theorem serveNext_of_ok (pull : (s.feed h).delivery = .pull) {m : StripMap} (hm : s.map = some m) {i : SlotId}
    (ok : s.attempt h = .ok i) :
    serveNext h s = ((s.issueTo h (s.ticketFor m h i)).postRunEnd h ((s.feed h).count == 1)).loadResponse h.port .ok
      (if (s.feed h).count == 1 then 1 else 0) (s.ticketFor m h i).bytes := by
  rw [serveNext, if_neg (by simp [pull]), hm, ok]

end Next

/-- A NEXT served that issues nothing: the port, while it waits, is given the reason (R49, R188). -/
theorem exec_arbiterServe_none {s : State} {h : Head} (request : (s.feed h).request = some .next)
    (first : s.issuer.lastServed = h → (s.feed h.other).request = none ∧ (s.feed h.other).fill = false)
    (pull : (s.feed h).delivery = .pull) {why : NoneReason} (error : s.attempt h = .error why) :
    exec .arbiterServe s = .next (s.finish (if (s.port h.port).framing = .waiting then
      (s.dropRequest h).respond h.port .none why.code [] else s.dropRequest h)) := by
  rw [exec_arbiterServe_next first request, serveNext_of_error (why := why) (by rwa [State.dropRequest_feed_self])
    ((s.attempt_dropRequest h).trans error)]
  rfl

/-- A NEXT served that issues (R49, R188): RUN_END where the issue ends the run (R44), and the ticket in the response. -/
theorem exec_arbiterServe_issues {s : State} {h : Head} (request : (s.feed h).request = some .next)
    (first : s.issuer.lastServed = h → (s.feed h.other).request = none ∧ (s.feed h.other).fill = false)
    (pull : (s.feed h).delivery = .pull) {m : StripMap} (hm : s.map = some m) {i : SlotId} (ok : s.attempt h = .ok i)
    {issued : State} (issue : (s.dropRequest h).issueTo h (s.ticketFor m h i) = issued) :
    exec .arbiterServe s = .next (s.finish (
      let ended := decide ((s.feed h).count = 1)
      let posted := if ended then issued.post h.port (.runEnd ((s.feed h).tickets.length + 1)) else issued
      if (s.port h.port).framing = .waiting then
        posted.respond h.port .ok (if ended then 1 else 0) (s.ticketFor m h i).bytes
      else posted)) := by
  have framing (ended : Bool) :
      ((((s.dropRequest h).issueTo h (s.ticketFor m h i)).postRunEnd h ended).port h.port).framing
        = (s.port h.port).framing := State.postRunEnd_framing ..
  have ok' : (s.dropRequest h).attempt h = .ok i := (s.attempt_dropRequest h).trans ok
  subst issue
  rw [exec_arbiterServe_next first request,
    serveNext_of_ok (s := s.dropRequest h) (by rwa [State.dropRequest_feed_self]) hm ok',
    State.ticketFor_dropRequest, State.dropRequest_feed_self,
    State.loadResponse_eq (framing _), State.postRunEnd_issueTo,
    State.dropRequest_feed_self]
  rfl

/-- Settles O25, by the first issue condition that fails, or the slot the scan finds. -/
theorem arbiterServesNext : Obligations.ArbiterServesNext := by
  intro h s request first s0 answer refused numbers
  refine ⟨(s.feed h).pickNumber_isNextFree, fun push => ?_, fun pull => ?_⟩
  · rw [exec_arbiterServe_next first request, serveNext_of_push (by rwa [State.dropRequest_feed_self])]
    rfl
  have refuse {why : NoneReason} (error : s.attempt h = .error why) : refused why.code :=
    exec_arbiterServe_none request first pull error
  refine ⟨fun noMap => refuse (State.attempt_of_no_map noMap), fun m hm => ⟨fun complete =>
    refuse (State.attempt_of_complete hm complete), fun incomplete => ⟨fun held =>
    refuse (State.attempt_of_held hm incomplete (s.held_eq_true_iff.mpr held)), fun noReason enabled => ?_⟩⟩⟩
  have held := s.held_eq_false_iff.mpr ⟨noReason, enabled⟩
  refine ⟨fun clamp => refuse (State.attempt_of_clamp hm incomplete held clamp), fun clamp => ⟨fun off =>
    refuse (State.attempt_of_not_running hm incomplete held clamp off), fun running => ⟨fun full =>
    refuse (State.attempt_of_full hm incomplete held clamp running full), fun room => ?_⟩⟩⟩
  have scanned := State.attempt_of_room hm incomplete held clamp running room
  intro opened ready free
  refine ⟨fun ineligible => ⟨fun guard => refuse (why := .guard) ?_, fun noGuard => ⟨fun tier =>
    refuse (why := .tierWait) ?_, fun noTier => refuse (why := .noWire) ?_⟩⟩, fun i found => ?_⟩
  · rw [scanned, State.scanned_of_ineligible ineligible, if_pos guard]
  · rw [scanned, State.scanned_of_ineligible ineligible, if_neg (by simpa using noGuard), if_pos tier]
  · rw [scanned, State.scanned_of_ineligible ineligible, if_neg (by simpa using noGuard), if_neg (by simpa using noTier)]
  · have ok := scanned.trans (State.scanned_eq_ok_iff.mpr found)
    exact exec_arbiterServe_issues request first pull hm ok (State.issueTo_dropRequest hm running room _)

/-! ### CLAIM -/

/-- A CLAIM served that is refused (R55, R188). -/
theorem exec_arbiterServe_refuses {s : State} {h : Head} {u w : Nat} (request : (s.feed h).request = some (.claim u w))
    (first : s.issuer.lastServed = h → (s.feed h.other).request = none ∧ (s.feed h.other).fill = false)
    {r : CmdResult} {d : Nat} (error : s.claimCheck h u w = .error (r, d)) :
    exec .arbiterServe s = .next (s.finish (if (s.port h.port).framing = .waiting then
      (s.dropRequest h).respond h.port r d [] else s.dropRequest h)) := by
  rw [exec_arbiterServe_claim first request, serveClaim, State.claimCheck_dropRequest, error]
  rfl

/-- A CLAIM served that is granted (R56, R188). -/
theorem exec_arbiterServe_grants {s : State} {h : Head} {u w : Nat} (request : (s.feed h).request = some (.claim u w))
    (first : s.issuer.lastServed = h → (s.feed h.other).request = none ∧ (s.feed h.other).fill = false)
    {t : Ticket} (ok : s.claimCheck h u w = .ok t) {granted : State} (grant : (s.dropRequest h).grantTicket h t = granted) :
    exec .arbiterServe s = .next (s.finish (if (s.port h.port).framing = .waiting then
      granted.respond h.port .ok 0 t.bytes else granted)) := by
  subst grant
  rw [exec_arbiterServe_claim first request, serveClaim, State.claimCheck_dropRequest, ok]
  rfl

/-- The state after a CLAIM that was waiting has been issued a ticket. -/
theorem State.grantTicket_dropRequest {s : State} {m : StripMap} (hm : s.map = some m) (h : Head) (t : Ticket) :
    (s.dropRequest h).grantTicket h t = { s.setFeed h { s.feed h with request := none } with
      map := some (m.request t.unit t.wire (requestIssue h t.number))
      issuer := { s.issuer with
        lastServed := h
        feeds := s.issuer.feeds.set h { s.feed h with
          request := none
          tickets := (s.feed h).tickets ++ [t]
          nextNumber := (t.number + 1) % 256
          fill := (s.feed h).fill && decide ((s.feed h).tickets.length + 1 ≠ (s.feed h).depth) } } } := by
  rw [State.grantTicket_eq (s := s.dropRequest h) hm, State.dropRequest_feed_self]
  simp only [State.dropRequest, State.setFeed_issuer, PerHead.set_set]
  rfl

theorem SlotPhase.owner?_of_closed {ph : SlotPhase} (closed : ph.code = 3 ∨ ph.code = 4) :
    ph.owner? = none ∧ ph ≠ .opened := by
  cases ph <;> simp_all [SlotPhase.code, SlotPhase.owner?]

/-- Settles O26, by the first check of CLAIM that fails. -/
theorem arbiterServesClaim : Obligations.ArbiterServesClaim := by
  intro h u w s request first s0 answer refused numbers
  have refuse {r : CmdResult} {d : Nat} (error : s.claimCheck h u w = .error (r, d)) : refused r d :=
    exec_arbiterServe_refuses request first error
  refine ⟨(s.feed h).pickNumber_isNextFree, fun held => refuse (State.claimCheck_of_held (s.held_eq_true_iff.mpr held)),
    fun noReason enabled => ?_⟩
  have held := s.held_eq_false_iff.mpr ⟨noReason, enabled⟩
  refine ⟨fun clamp => refuse (State.claimCheck_of_clamp held clamp), fun clamp => ⟨fun full =>
    refuse (State.claimCheck_of_full held clamp full), fun room => ⟨fun noMap =>
    refuse (State.claimCheck_of_no_map held clamp room noMap), fun m hm => ⟨fun noSlot =>
    refuse (State.claimCheck_of_no_slot held clamp room hm noSlot), fun sl slot => ⟨fun own => ?_, fun other => ?_,
    fun closed => ?_, fun opened => ?_⟩⟩⟩⟩⟩
  · obtain ⟨⟨k, n⟩, owner, rfl⟩ := Option.map_eq_some_iff.mp own
    exact refuse ((State.claimCheck_of_owner held clamp room hm slot owner).trans (if_pos rfl))
  · obtain ⟨⟨k, n⟩, owner, rfl⟩ := Option.map_eq_some_iff.mp other
    exact refuse ((State.claimCheck_of_owner held clamp room hm slot owner).trans (if_neg (head_other_ne h)))
  · obtain ⟨owner, notOpened⟩ := SlotPhase.owner?_of_closed closed
    exact refuse (State.claimCheck_of_not_opened held clamp room hm slot owner notOpened)
  · have check := State.claimCheck_of_opened held clamp room hm slot opened
    refine ⟨fun tier => refuse (check.trans (if_pos tier)), fun tier => ?_⟩
    rw [if_neg (by simp [tier])] at check
    refine ⟨fun guard => refuse (check.trans (if_pos guard)), fun free => ?_⟩
    rw [if_neg (by simp [free])] at check
    exact exec_arbiterServe_grants request first check (State.grantTicket_dropRequest hm h _)

/-! ### Fill requests -/

theorem serveFill_of_ok {s : State} {h : Head} {m : StripMap} (hm : s.map = some m) {i : SlotId}
    (ok : s.attempt h = .ok i) :
    let t := s.ticketFor m h i
    serveFill h s = ((s.issueTo h t).post h.port (.ticket t.number t.unit t.wire t.tier t.limitSet t.profile)).postRunEnd h
      ((s.feed h).count == 1) := by
  rw [serveFill, hm, ok]

theorem serveFill_of_none {s : State} {h : Head} (barred : ∀ i, s.attempt h ≠ .ok i) :
    serveFill h s = s.setFeed h { s.feed h with fill := false } := by
  unfold serveFill
  split
  · next i _ ok => exact absurd ok (barred i)
  · rfl

/-- A fill request served that issues (R52): TICKET, and RUN_END after it where the issue ends the run (R44). -/
theorem exec_fillServe_issues {s : State} {h : Head} (serve : exec .fillServe s = .next (s.finish (serveFill h s)))
    {m : StripMap} (hm : s.map = some m) {i : SlotId} (ok : s.attempt h = .ok i) {issued : State}
    (issue : s.issueTo h (s.ticketFor m h i) = issued) :
    exec .fillServe s = .next (s.finish (
      let t := s.ticketFor m h i
      let posted := issued.post h.port (.ticket t.number t.unit t.wire t.tier t.limitSet t.profile)
      if decide ((s.feed h).count = 1) then posted.post h.port (.runEnd ((s.feed h).tickets.length + 1)) else posted)) := by
  have tickets (n : Notice) : ((issued.post h.port n).feed h).tickets.length = (s.feed h).tickets.length + 1 := by
    rw [← State.issueTo_tickets s h (s.ticketFor m h i), issue]
    rfl
  rw [serve, serveFill_of_ok hm ok, issue, State.postRunEnd, tickets]
  rfl

/-- Settles O27, by whether the issue conditions hold and the scan finds a slot. -/
theorem arbiterServesFill : Obligations.ArbiterServesFill := by
  intro h s idle fill first can numbers
  have serve := exec_fillServe first idle fill
  have can_iff (i : SlotId) : s.attempt h = .ok i ↔ ∃ m, can m i := by
    simp only [State.attempt_eq_ok_iff, State.held_eq_false_iff, and_assoc]
    rfl
  refine ⟨(s.feed h).pickNumber_isNextFree, fun unable => ?_, fun m i able => ?_⟩
  · rw [serve, serveFill_of_none fun i ok => ((can_iff i).mp ok).elim fun m => unable m i]
  · have ok := (can_iff i).mpr ⟨m, able⟩
    obtain ⟨hm, -, -, -, -, running, room, -⟩ := able
    refine exec_fillServe_issues serve hm ok ?_
    rw [State.issueTo_running hm running room, fill, Bool.true_and]
    rfl

end Sys2Proof.Machine
end

section
/-! Eligible slots (R28, R47) and the order of a scan (R46). -/

namespace Sys2Proof.Machine

/-! ### Eligible slots -/

theorem StripMap.isOpen_iff (m : StripMap) (i : SlotId) :
    m.isOpen i = true ↔ ∃ r sl, m.units[i.unit]? = some r ∧ r.slots[i.wire]? = some sl ∧ r.state ≠ .skipped
      ∧ sl.phase = .opened := by
  unfold StripMap.isOpen
  cases m.units[i.unit]? with
  | none => simp
  | some r => simp [and_left_comm]

theorem UnitRec.tierReady_iff (r : UnitRec) (tier : Nat) :
    r.tierReady tier = true ↔ ∀ t, t < tier → (r.unclosed[t]?).getD 0 = 0 := by
  simp only [UnitRec.tierReady, List.all_eq_true, beq_iff_eq, List.mem_take_iff_getElem]
  constructor
  · intro closed t lt
    rcases Nat.lt_or_ge t r.unclosed.length with inside | outside
    · simpa [inside] using closed _ ⟨t, by omega, rfl⟩
    · simp [outside]
  · rintro closed _ ⟨t, lt, rfl⟩
    have inside : t < r.unclosed.length := by omega
    simpa [inside] using closed t (by omega)

theorem distance_eq (x y : Nat) : distance x y = ((x : Int) - (y : Int)).natAbs := by
  unfold distance
  omega

theorem State.guardFree_iff (s : State) (m : StripMap) (h : Head) (i : SlotId) :
    s.guardFree m h i = true ↔ ∀ x ∈ (s.feed h.other).tickets,
      s.issuer.guard ≤ (((i.unit * (s.boundProgram m).pitch + ((s.boundProgram m).wire i.wire).x : Nat) : Int)
        - (x.absX : Int)).natAbs := by
  simp only [State.guardFree, guardPasses, List.all_eq_true, decide_eq_true_eq, distance_eq, Program.absX]

theorem State.eligible_iff (s : State) (m : StripMap) (h : Head) (i : SlotId) :
    s.eligible m h i = true ↔
      ∃ r sl, m.units[i.unit]? = some r ∧ r.slots[i.wire]? = some sl ∧ r.state ≠ .skipped ∧ sl.phase = .opened
        ∧ (∀ t, t < ((s.boundProgram m).wire i.wire).tier → (r.unclosed[t]?).getD 0 = 0)
        ∧ ∀ x ∈ (s.feed h.other).tickets,
            s.issuer.guard ≤ (((i.unit * (s.boundProgram m).pitch + ((s.boundProgram m).wire i.wire).x : Nat) : Int)
              - (x.absX : Int)).natAbs := by
  have ready {r : UnitRec} (unit : m.units[i.unit]? = some r) : m.tierReady (s.boundProgram m) i = true ↔
      ∀ t, t < ((s.boundProgram m).wire i.wire).tier → (r.unclosed[t]?).getD 0 = 0 := by
    rw [StripMap.tierReady, unit]
    exact r.tierReady_iff _
  rw [State.eligible, Bool.and_eq_true, Bool.and_eq_true, StripMap.isOpen_iff, State.guardFree_iff]
  constructor
  · rintro ⟨⟨⟨r, sl, unit, slot, active, opened⟩, tier⟩, free⟩
    exact ⟨r, sl, unit, slot, active, opened, (ready unit).mp tier, free⟩
  · rintro ⟨r, sl, unit, slot, active, opened, tier, free⟩
    exact ⟨⟨⟨r, sl, unit, slot, active, opened⟩, (ready unit).mpr tier⟩, free⟩

/-! ### The slots of some units -/

/-- The slots of one unit at some wires. -/
def slotsAt (u : Nat) (wires : List Nat) : List SlotId := wires.map fun w => ⟨u, w⟩

theorem slotsOf_append (us vs : List Nat) (W : Nat) : slotsOf (us ++ vs) W = slotsOf us W ++ slotsOf vs W :=
  List.flatMap_append

theorem slotsOf_cons (u : Nat) (us : List Nat) (W : Nat) : slotsOf (u :: us) W = slotsAt u (List.range W) ++ slotsOf us W :=
  List.flatMap_cons

theorem slotsAt_append (u : Nat) (ws vs : List Nat) : slotsAt u (ws ++ vs) = slotsAt u ws ++ slotsAt u vs := List.map_append

theorem length_slotsAt (u : Nat) (wires : List Nat) : (slotsAt u wires).length = wires.length := List.length_map _

theorem length_slotsOf (us : List Nat) (W : Nat) : (slotsOf us W).length = us.length * W := by
  induction us with
  | nil => simp [slotsOf]
  | cons u us ih => rw [slotsOf_cons, List.length_append, ih, length_slotsAt, List.length_range, List.length_cons,
      Nat.succ_mul, Nat.add_comm]

theorem mem_slotsOf {us : List Nat} {W : Nat} {i : SlotId} : i ∈ slotsOf us W ↔ i.unit ∈ us ∧ i.wire < W := by
  obtain ⟨u, w⟩ := i
  simp [slotsOf]

theorem nodup_slotsOf {us : List Nat} (nodup : us.Nodup) (W : Nat) : (slotsOf us W).Nodup := by
  refine List.pairwise_flatMap.mpr ⟨fun u _ => ?_, nodup.imp fun ne i hi j hj same => ?_⟩
  · exact List.pairwise_map.mpr (List.nodup_range.imp fun ne e => ne (SlotId.mk.inj e).2)
  · obtain ⟨x, -, rfl⟩ := List.mem_map.mp hi
    obtain ⟨y, -, rfl⟩ := List.mem_map.mp hj
    exact ne (SlotId.mk.inj same).1

/-! ### The order of a scan -/

theorem Feed.nodup_unitOrder (f : Feed) (U : Nat) : (f.unitOrder U).Nodup := by
  unfold Feed.unitOrder
  split
  · exact List.nodup_range
  · exact List.pairwise_reverse.mpr (List.nodup_range.imp Ne.symm)
  · split
    · exact List.pairwise_singleton ..
    · exact List.Pairwise.nil

theorem Feed.mem_unitOrder (f : Feed) (U u : Nat) :
    u ∈ f.unitOrder U ↔ u < U ∧ (f.traversal = .fixed → u = f.fixedUnit) := by
  unfold Feed.unitOrder
  split
  · next e => simp [e]
  · next e => simp [e]
  · next e =>
    split
    · simp only [List.mem_singleton, e, forall_const]
      omega
    · simp only [List.not_mem_nil, e, forall_const, false_iff]
      omega

section Scan

variable {f : Feed} {U W : Nat} {c : SlotId} {before after : List Nat}

theorem Feed.scan_eq (f : Feed) (U W : Nat) :
    f.scan U W = (slotsOf (f.unitOrder U) W).drop (f.startPoint (f.unitOrder U) W)
      ++ (slotsOf (f.unitOrder U) W).take (f.startPoint (f.unitOrder U) W) := rfl

/-- A scan visits each slot of the scope once. -/
theorem Feed.count_scan (f : Feed) (U W : Nat) (i : SlotId) :
    (f.scan U W).count i
      = if i.unit < U ∧ i.wire < W ∧ (f.traversal = .fixed → i.unit = f.fixedUnit) then 1 else 0 := by
  have rotated : (f.scan U W).count i = (slotsOf (f.unitOrder U) W).count i := by
    rw [Feed.scan_eq, List.count_append, Nat.add_comm, ← List.count_append, List.take_append_drop]
  rw [rotated, (nodup_slotsOf (f.nodup_unitOrder U) W).count]
  have scope : i ∈ slotsOf (f.unitOrder U) W ↔
      i.unit < U ∧ i.wire < W ∧ (f.traversal = .fixed → i.unit = f.fixedUnit) := by
    rw [mem_slotsOf, Feed.mem_unitOrder, and_assoc, and_comm (b := i.wire < W)]
  exact ite_congr (propext scope) (fun _ => rfl) (fun _ => rfl)

theorem Feed.scan_of_start (start : f.startPoint (f.unitOrder U) W = 0) : f.scan U W = slotsOf (f.unitOrder U) W := by
  rw [Feed.scan_eq, start, List.drop_zero, List.take_zero, List.append_nil]

theorem Feed.scan_of_no_cursor (absent : f.cursor = none) : f.scan U W = slotsOf (f.unitOrder U) W :=
  Feed.scan_of_start (by rw [Feed.startPoint, absent])

theorem Feed.scan_of_outside (cursor : f.cursor = some c) (outside : c.unit ∉ f.unitOrder U) :
    f.scan U W = slotsOf (f.unitOrder U) W :=
  Feed.scan_of_start (by simp [Feed.startPoint, cursor, List.idxOf?_eq_none_iff.mpr outside])

/-- The place of the cursor's unit in the order. -/
theorem idxOf?_split {order : List Nat} (nodup : order.Nodup) {u : Nat} (split : order = before ++ u :: after) :
    order.idxOf? u = some before.length := by
  have first : u ∉ before := by
    rw [split] at nodup
    exact fun mem => (List.nodup_append.mp nodup).2.2 u mem u (List.mem_cons_self ..) rfl
  have absent : before.findIdx? (· == u) = none :=
    List.findIdx?_eq_none_iff.mpr fun x mem => beq_eq_false_iff_ne.mpr fun (e : x = u) => first (e ▸ mem)
  rw [split, List.idxOf?, List.findIdx?_append, absent]
  simp [List.findIdx?_cons]

theorem Feed.scan_sequential (cursor : f.cursor = some c) (split : f.unitOrder U = before ++ c.unit :: after)
    (order : f.order = .sequential) (wire : c.wire < W) :
    f.scan U W = slotsAt c.unit ((List.range W).drop (c.wire + 1)) ++ slotsOf after W ++ slotsOf before W
      ++ slotsAt c.unit ((List.range W).take (c.wire + 1)) := by
  have start : f.startPoint (f.unitOrder U) W = (slotsOf before W).length + (c.wire + 1) := by
    simp only [Feed.startPoint, cursor, idxOf?_split (f.nodup_unitOrder U) split, order, length_slotsOf, Nat.add_assoc]
  have within : c.wire + 1 ≤ (slotsAt c.unit (List.range W)).length := by
    rw [length_slotsAt, List.length_range]
    exact wire
  rw [Feed.scan_eq, start, split, slotsOf_append, slotsOf_cons, List.drop_length_add_append, List.take_length_add_append,
    List.drop_append_of_le_length within, List.take_append_of_le_length within, slotsAt, ← List.map_drop, ← List.map_take,
    ← List.append_assoc]
  rfl

theorem Feed.scan_stride (cursor : f.cursor = some c) (split : f.unitOrder U = before ++ c.unit :: after)
    (order : f.order = .stride) :
    f.scan U W = slotsOf after W ++ slotsOf before W ++ slotsOf [c.unit] W := by
  have start : f.startPoint (f.unitOrder U) W = (before.length + 1) % (f.unitOrder U).length * W := by
    simp only [Feed.startPoint, cursor, idxOf?_split (f.nodup_unitOrder U) split, order]
  cases after with
  | nil =>
    rw [Feed.scan_of_start (by rw [start, split]; simp), split, slotsOf_append]
    rfl
  | cons u after =>
    have next : f.startPoint (f.unitOrder U) W = (slotsOf (before ++ [c.unit]) W).length := by
      rw [start, length_slotsOf, split, Nat.mod_eq_of_lt (by simp), List.length_append]
      rfl
    have cut : before ++ c.unit :: u :: after = (before ++ [c.unit]) ++ u :: after := by simp
    rw [Feed.scan_eq, next, split, cut, slotsOf_append (before ++ [c.unit]), List.drop_left, List.take_left, slotsOf_append before,
      List.append_assoc]

/-- Under SEQUENTIAL the cursor slot comes last. -/
theorem Feed.scan_getLast (cursor : f.cursor = some c) (order : f.order = .sequential) (unit : c.unit ∈ f.unitOrder U)
    (wire : c.wire < W) : (f.scan U W).getLast? = some c := by
  obtain ⟨before, after, split⟩ := List.append_of_mem unit
  have last : (List.range W).take (c.wire + 1) = List.range c.wire ++ [c.wire] := by
    rw [List.take_range, Nat.min_eq_left wire, List.range_succ]
  rw [Feed.scan_sequential cursor split order wire, last, slotsAt_append, ← List.append_assoc]
  exact List.getLast?_concat

end Scan

/-- Settles O24: eligibility by its three tests, and the scan by where the cursor stands. -/
theorem scanAndEligibility : Obligations.ScanAndEligibility :=
  ⟨State.eligible_iff, fun f U W => ⟨f.count_scan U W,
    ⟨Feed.scan_of_no_cursor, fun _ cursor outside => Feed.scan_of_outside cursor outside,
      fun _ _ _ cursor split => ⟨Feed.scan_sequential cursor split, Feed.scan_stride cursor split⟩⟩,
    fun _ cursor order unit wire scope =>
      Feed.scan_getLast cursor order ((f.mem_unitOrder U _).mpr ⟨unit, scope⟩) wire⟩⟩

end Sys2Proof.Machine
end

section
/-! The timer law (R76): what each command and event does to the receivers and to the channels that are enabled, and so every
step. -/

namespace Sys2Proof.Machine

/-! ### The absence timers (R76) -/

/-- The timer law reads the receivers and which channels are enabled. -/
theorem State.timerLaw_congr {s t : State} (links : t.links = s.links)
    (enabled : ∀ c, (t.chan c).enabled = (s.chan c).enabled) (law : s.timerLaw) : t.timerLaw := by
  intro l
  have link : t.link l = s.link l := by simp only [State.link, links]
  have same : t.linkEnabled l = s.linkEnabled l := by simp only [State.linkEnabled, enabled]
  rw [link, same]
  exact law l

theorem State.timerLaw_of_channels {s t : State} (links : t.links = s.links) (channels : t.channels = s.channels)
    (law : s.timerLaw) : t.timerLaw :=
  State.timerLaw_congr links (fun c => by simp only [State.chan, channels]) law

theorem State.timerLaw_setLink {s : State} (law : s.timerLaw) {l : Link} {r : Receiver}
    (runs : r.timer.isSome = (r.present && s.linkEnabled l)) : (s.setLink l r).timerLaw := by
  intro k
  rw [State.link_setLink]
  split
  · rename_i same
    subst same
    exact runs
  · exact law k

/-- The channels of the other links stay. -/
theorem State.linkEnabled_setChan {l : Link} {c : ChanId} (other : l ≠ c.link) (s : State) (x : Channel) :
    (s.setChan c x).linkEnabled l = s.linkEnabled l := by
  have apart : ∀ k ∈ linkChans l, k ≠ c := by cases l <;> cases c <;> simp_all [linkChans, ChanId.link]
  unfold State.linkEnabled
  rw [Bool.eq_iff_iff, List.any_eq_true, List.any_eq_true]
  refine exists_congr fun k => and_congr_right fun fed => ?_
  rw [State.chan_setChan, if_neg (apart k fed)]

theorem State.enabled_setChan {s : State} {c : ChanId} {x : Channel} (same : x.enabled = (s.chan c).enabled) (k : ChanId) :
    ((s.setChan c x).chan k).enabled = (s.chan k).enabled := by
  rw [State.chan_setChan]
  split
  · rename_i e
    rw [e, same]
  · rfl

theorem State.timerLaw_setChan {s : State} (law : s.timerLaw) {c : ChanId} {x : Channel}
    (same : x.enabled = (s.chan c).enabled) : (s.setChan c x).timerLaw :=
  State.timerLaw_congr (s := s) rfl (State.enabled_setChan same) law

theorem State.timerLaw_emptyChan {s : State} (law : s.timerLaw) (c : ChanId) : (s.emptyChan c).timerLaw :=
  State.timerLaw_setChan law rfl

theorem State.timerLaw_emptyHead {s : State} (law : s.timerLaw) (h : Head) : (s.emptyHead h).timerLaw :=
  State.timerLaw_emptyChan (State.timerLaw_emptyChan law _) _

/-- A timer that a condition starts runs exactly under the condition. -/
theorem isSome_timer (runs : Bool) (timeout : Nat) : (if runs then some timeout else none).isSome = runs := by
  cases runs <;> rfl

/-- A configuration leaves the timer of its link as the link and its channels ask for it. -/
theorem State.timerLaw_configure {s : State} (law : s.timerLaw) (c : ChanId) (x : Channel) (timeout : Nat) :
    ((s.setChan c x).setLink c.link
      (((s.setChan c x).link c.link).configure timeout ((s.setChan c x).linkEnabled c.link))).timerLaw := by
  intro l
  by_cases own : l = c.link
  · subst own
    rw [State.link_setLink_self]
    exact isSome_timer _ timeout
  · rw [State.link_setLink, if_neg own]
    exact (law l).trans (congrArg _ (State.linkEnabled_setChan own s x).symm)

theorem State.timerLaw_respond {s : State} (law : s.timerLaw) {p : PortId} {r : CmdResult} {d : Nat} {data : List Byte} :
    (s.respond p r d data).timerLaw :=
  State.timerLaw_of_channels (State.respond_links ..) (State.respond_channels ..) law

theorem doChcfg_timerLaw {s : State} (law : s.timerLaw) {p : PortId} {code flags d sh : Nat} {o : Int}
    {metric t n timeout : Nat} : (doChcfg p code flags d sh o metric t n timeout s).timerLaw := by
  unfold doChcfg
  split
  · exact State.timerLaw_respond law
  split
  · exact State.timerLaw_respond law
  split
  · exact State.timerLaw_respond law
  · exact State.timerLaw_respond (State.timerLaw_configure law _ _ _)

theorem State.emptyChan_channels (s : State) (c : ChanId) :
    (s.emptyChan c).channels = s.channels.set c (s.channels.get c).empty := rfl

theorem doPstart_timerLaw {s : State} (law : s.timerLaw) {p : PortId} {id : Nat} : (doPstart p id s).timerLaw := by
  unfold doPstart
  split
  · exact State.timerLaw_respond law
  split
  · exact State.timerLaw_respond law
  split
  · exact State.timerLaw_respond law
  split
  · exact State.timerLaw_respond law
  · dsimp only
    refine State.timerLaw_respond (State.timerLaw_emptyChan ?_ .pf)
    exact law

theorem State.timerLaw_endPull {s : State} (law : s.timerLaw) {r : PullRecord} {mode PF : Nat} {result : PullResult} :
    (s.endPull r mode PF result).timerLaw := by
  refine State.timerLaw_of_channels (s := s.emptyChan .pf) (by simp) ?_ (State.timerLaw_emptyChan law .pf)
  unfold State.endPull
  dsimp only
  split <;> simp [State.emptyChan_channels]

theorem doPend_timerLaw {s : State} (law : s.timerLaw) {p : PortId} {id mode : Nat} : (doPend p id mode s).timerLaw := by
  unfold doPend
  split
  · exact State.timerLaw_respond law
  split
  · exact State.timerLaw_respond law
  split
  · exact State.timerLaw_respond law
  · exact State.timerLaw_respond (State.timerLaw_endPull law)

theorem doPvoid_timerLaw {s : State} (law : s.timerLaw) {p : PortId} {id : Nat} : (doPvoid p id s).timerLaw := by
  unfold doPvoid
  split
  · exact State.timerLaw_respond law
  split
  · exact State.timerLaw_respond law
  rename_i r _ _
  dsimp only
  refine State.timerLaw_respond (State.timerLaw_of_channels (State.finishRecord_links ..) (State.finishRecord_channels ..) ?_)
  split
  · exact State.timerLaw_emptyChan law .pf
  · exact law

theorem State.timerLaw_emptyCaptures {s : State} (law : s.timerLaw) : s.emptyCaptures.timerLaw := by
  have a : (if (s.capture .a).window.isSome then s.emptyHead .a else s).timerLaw := by
    split
    · exact State.timerLaw_emptyHead law .a
    · exact law
  have b : (if (s.capture .b).window.isSome then
      (if (s.capture .a).window.isSome then s.emptyHead .a else s).emptyHead .b
      else if (s.capture .a).window.isSome then s.emptyHead .a else s).timerLaw := by
    split
    · exact State.timerLaw_emptyHead a .b
    · exact a
  unfold State.emptyCaptures
  dsimp only
  split
  · exact State.timerLaw_emptyChan b .pf
  · exact b

theorem doRestart_timerLaw {s : State} (law : s.timerLaw) {p : PortId} : (doRestart p s).timerLaw := by
  refine State.timerLaw_respond (State.timerLaw_of_channels (s := s.emptyCaptures) ?_ ?_ (State.timerLaw_emptyCaptures law))
  · simp
  · simp [State.discardWork]

/-- The commands that may change a receiver or a channel. -/
def changesChannels : Cmd → Bool
  | .chcfg | .pstart | .pend | .pvoid | .restart => true
  | _ => false

theorem carryOut_links {c : Cmd} (h : changesChannels c = false) (p : PortId) (bs : List Byte) (s : State) :
    (carryOut c p bs s).links = s.links := by
  cases c <;> simp_all [changesChannels, carryOut, withHead_links]

theorem carryOut_channels {c : Cmd} (h : changesChannels c = false) (p : PortId) (bs : List Byte) (s : State) :
    (carryOut c p bs s).channels = s.channels := by
  cases c <;> simp_all [changesChannels, carryOut, withHead_channels]

theorem carryOut_timerLaw {s : State} (law : s.timerLaw) (c : Cmd) (p : PortId) (bs : List Byte) :
    (carryOut c p bs s).timerLaw := by
  cases hc : changesChannels c with
  | false => exact State.timerLaw_of_channels (carryOut_links hc p bs s) (carryOut_channels hc p bs s) law
  | true =>
    cases c <;> simp only [changesChannels, reduceCtorEq] at hc
    case chcfg => exact doChcfg_timerLaw law
    case pstart => exact doPstart_timerLaw law
    case pend => exact doPend_timerLaw law
    case pvoid => exact doPvoid_timerLaw law
    case restart => exact doRestart_timerLaw law

theorem State.timerLaw_openWindow {s : State} (law : s.timerLaw) (h : Head) : (s.openWindow h).timerLaw :=
  State.timerLaw_emptyHead (s := s.setCapture h _) law h

theorem State.timerLaw_closeWindow {s : State} (law : s.timerLaw) (h : Head) : (s.closeWindow h).timerLaw := by
  unfold State.closeWindow
  dsimp only
  split
  · exact law
  have gone : ((s.setCapture h { s.capture h with win := false, window := none, armed := none }).emptyHead h).timerLaw :=
    State.timerLaw_emptyHead (s := s.setCapture h _) law h
  split
  · exact State.timerLaw_of_channels (State.closeBound_links ..) (State.closeBound_channels ..) gone
  · exact State.timerLaw_of_channels (State.post_links ..) (State.post_channels ..) gone
  · exact gone

/-- A good word keeps the timer of its link running exactly while it is to run (R68, R78). -/
theorem State.timerLaw_goodWord {s : State} (law : s.timerLaw) (l : Link) {interpret : Receiver → Receiver}
    (timer : ∀ r, (interpret r).timer = r.timer) (present : ∀ r, (interpret r).present = r.present) :
    (s.goodWord l interpret).timerLaw := by
  have taken : (s.setLink l (interpret ((s.link l).goodWord (s.linkEnabled l)))).timerLaw := by
    refine State.timerLaw_setLink law ?_
    rw [timer, present, Receiver.goodWord]
    split
    · rw [Option.isSome_map]
      exact law l
    · exact isSome_timer _ _
  unfold State.goodWord
  dsimp only
  split
  · exact taken
  · exact State.timerLaw_of_channels (State.postLink_links ..) (State.postLink_channels ..) taken

theorem Channel.enabled_sample (c : Channel) (x : Int) : (c.sample x).1.enabled = c.enabled := by
  unfold Channel.sample
  split <;> rfl

/-- The value handed on changes the touch run counter only. -/
theorem State.enabled_deliverValue (s : State) (c : ChanId) (before : Channel) (v : Int) (k : ChanId) :
    ((s.deliverValue c before v).chan k).enabled = (s.chan k).enabled := by
  have run : (((s.setChan c { s.chan c with run := before.runAfter v }).chan k)).enabled = (s.chan k).enabled :=
    State.enabled_setChan (x := { s.chan c with run := before.runAfter v }) rfl k
  have touched (h : Head) : ((s.detectTouch c h before v).chan k).enabled = (s.chan k).enabled := by
    unfold State.detectTouch
    dsimp only
    split
    · simpa [State.chan] using run
    · exact run
  unfold State.deliverValue
  split
  · exact touched _
  · rfl

theorem State.timerLaw_sample {s : State} (law : s.timerLaw) (c : ChanId) (x : Int) : (s.sample c x).timerLaw := by
  have summed : (s.setChan c ((s.chan c).sample x).1).timerLaw := State.timerLaw_setChan law (Channel.enabled_sample ..)
  unfold State.sample
  dsimp only
  split
  · exact law
  split
  · exact summed
  · exact State.timerLaw_congr (State.deliverValue_links ..) (State.enabled_deliverValue _ _ _ _) summed

theorem State.timerLaw_samples {s : State} (law : s.timerLaw) (xs : List (ChanId × Int)) :
    (xs.foldl (fun s x => s.sample x.1 x.2) s).timerLaw := by
  induction xs generalizing s with
  | nil => exact law
  | cons x xs ih => exact ih (State.timerLaw_sample law x.1 x.2)

theorem doFramingError_timerLaw {s : State} (law : s.timerLaw) (l : Link) : (doFramingError l s).timerLaw := by
  have marked : (s.markLink l Window.markFraming fun k => { k with framing := true }).timerLaw :=
    State.timerLaw_of_channels (State.markLink_links ..) (State.markLink_channels ..) law
  exact State.timerLaw_setLink marked (marked l)

theorem doAbsenceExpiry_timerLaw {s : State} (law : s.timerLaw) (l : Link) : (doAbsenceExpiry l s).timerLaw := by
  have marked : (s.markLink l Window.markAbsence fun k => { k with absence := true }).timerLaw :=
    State.timerLaw_of_channels (State.markLink_links ..) (State.markLink_channels ..) law
  exact State.timerLaw_of_channels (State.postLink_links ..) (State.postLink_channels ..)
    (State.timerLaw_setLink marked (l := l) rfl)

theorem State.released_timerLaw (lines : LineLevels) (pending : List Instr) : (State.released lines pending).timerLaw := by
  intro l
  cases l <;> rfl

/-- Each taking of a command and each event keeps the timer law. -/
theorem State.keeps_timerLaw : Keeps State.timerLaw where
  port _ _ _ _ law := law
  screen _ _ law := law
  pending _ _ law := law
  command c p bs _ law := carryOut_timerLaw law c p bs
  group _ _ _ _ law := State.timerLaw_of_channels (State.takePwireGroup_links ..) (State.takePwireGroup_channels ..) law
  arbiter _ law := State.timerLaw_of_channels (doArbiterServe_links _) (doArbiterServe_channels _) law
  fill _ law := State.timerLaw_of_channels (doFillServe_links _) (doFillServe_channels _) law
  opens h _ _ law := State.timerLaw_openWindow law h
  closes h _ _ law := State.timerLaw_closeWindow law h
  holdOn _ law := State.timerLaw_of_channels (State.addReason_links ..) (State.addReason_channels ..) law
  holdOff _ law := State.timerLaw_of_channels (State.removeReasons_links ..) (State.removeReasons_channels ..) law
  rst := State.released_timerLaw
  address l _ _ law := State.timerLaw_goodWord law l (fun _ => rfl) (fun _ => rfl)
  data l _ _ law := State.timerLaw_samples (State.timerLaw_goodWord law l (fun _ => rfl) (fun _ => rfl)) _
  framing l _ law := doFramingError_timerLaw law l
  expiry l _ _ law := doAbsenceExpiry_timerLaw law l
  rest l _ law := State.timerLaw_setLink law (law l)

end Sys2Proof.Machine
end

section
/-! The serial law (R118): what each command and event does to the serials in flight and stowed, and so every step. -/

namespace Sys2Proof.Machine

/-! ### The serials in flight and stowed (R118) -/

/-- The serial of a strip stowed in an output slot (R120). -/
def OutSlot.serial? : OutSlot → Option W32
  | .stowed c => some c.serial
  | _ => none

theorem Tracker.serials_eq (t : Tracker) :
    t.serials = t.feed.toList.map (·.serial) ++ (t.zone.toList.map (·.serial) ++ (t.pull.toList.map (·.serial)
      ++ ((t.output.map (·.slots)).getD []).filterMap OutSlot.serial?)) := by
  simp only [Tracker.serials, List.map_append, List.append_assoc]
  rfl

/-- Serials may leave. -/
theorem State.serialLaw_of_sublist {s t : State} (fewer : t.tracker.serials.Sublist s.tracker.serials)
    (law : s.serialLaw) : t.serialLaw :=
  List.Pairwise.sublist fewer law

/-- Serials may change places. -/
theorem State.serialLaw_of_perm {s t : State} (moved : t.tracker.serials.Perm s.tracker.serials) (law : s.serialLaw) :
    t.serialLaw :=
  moved.nodup_iff.mpr law

theorem State.serialLaw_of_serials {s t : State} (same : t.tracker.serials = s.tracker.serials) (law : s.serialLaw) :
    t.serialLaw := by
  rw [State.serialLaw, same]
  exact law

theorem State.serialLaw_of_tracker {s t : State} (same : t.tracker = s.tracker) (law : s.serialLaw) : t.serialLaw :=
  State.serialLaw_of_serials (congrArg Tracker.serials same) law

theorem State.serialLaw_respond {s : State} (law : s.serialLaw) {p : PortId} {r : CmdResult} {d : Nat} {data : List Byte} :
    (s.respond p r d data).serialLaw := law

theorem State.checkClamp_serials (s : State) : s.checkClamp.tracker.serials = s.tracker.serials := by
  unfold State.checkClamp
  split
  · rw [State.post_tracker]
    rfl
  · rfl

theorem State.cancelTicket_serials (s : State) (h : Head) (why : StrayReason) (t : Ticket) :
    (s.cancelTicket h why t).tracker.serials = s.tracker.serials := by
  unfold State.cancelTicket
  dsimp only
  rw [State.checkClamp_serials, State.checkComplete_tracker]
  rfl

theorem State.finishRecord_serials (s : State) (passed failed : Nat) :
    (s.finishRecord passed failed).tracker.serials = s.tracker.serials := by
  have pull : (s.finishRecord passed failed).tracker.pull.toList.map (·.serial)
      = s.tracker.pull.toList.map (·.serial) := by
    cases e : s.tracker.pull <;> simp [State.finishRecord, e]
  rw [Tracker.serials_eq, Tracker.serials_eq, pull]
  rfl

theorem State.buildMap_tracker (s : State) (slot : Nat) (prog : Program) (r : StripRecord) :
    (s.buildMap slot prog r).tracker
      = { s.tracker with zone := some { r with binding := .bound slot, sampled := some s.pull.samples } } := by
  unfold State.buildMap
  simp

/-- A map build binds the strip at ZONE, whose serial stays. -/
theorem State.buildMap_serials {s : State} {r : StripRecord} (zone : s.tracker.zone.map (·.serial) = some r.serial)
    (slot : Nat) (prog : Program) : (s.buildMap slot prog r).tracker.serials = s.tracker.serials := by
  obtain ⟨r', hz, same⟩ := Option.map_eq_some_iff.mp zone
  rw [State.buildMap_tracker, Tracker.serials_eq, Tracker.serials_eq, hz]
  simp [same]

theorem doPsel_serialLaw {s : State} (law : s.serialLaw) {p : PortId} {v : Nat} : (doPsel p v s).serialLaw := by
  unfold doPsel
  split
  · refine State.serialLaw_respond ?_
    exact law
  split
  · exact State.serialLaw_respond law
  split
  · exact State.serialLaw_respond law
  split
  · exact State.serialLaw_respond law
  dsimp only
  split
  · refine State.serialLaw_respond ?_
    exact law
  · rename_i r waits
    have zone : s.tracker.zone = some r := (Option.filter_eq_some_iff.mp waits).1
    refine State.serialLaw_respond (State.serialLaw_of_serials (State.buildMap_serials ?_ _ _) ?_)
    · exact congrArg (Option.map _) zone
    · exact law

theorem doZone_serialLaw {s : State} (law : s.serialLaw) {p : PortId} {mask : Vector Byte 8} : (doZone p mask s).serialLaw := by
  unfold doZone
  split
  · exact State.serialLaw_respond law
  rename_i r feed
  split
  · exact State.serialLaw_respond law
  rename_i free
  have moved {strip : StripRecord} (same : strip.serial = r.serial) :
      { s with tracker := { s.tracker with feed := none, zone := some strip } }.serialLaw := by
    have zone : s.tracker.zone = none := by simpa using free
    refine State.serialLaw_of_serials ?_ law
    simp [Tracker.serials_eq, feed, zone, same]
  dsimp only
  split
  · refine State.serialLaw_respond (State.serialLaw_of_serials (State.buildMap_serials (by rfl) _ _) ?_)
    exact moved rfl
  · refine State.serialLaw_respond (State.serialLaw_of_tracker (State.post_tracker ..) ?_)
    exact moved rfl

/-- A table as it is loaded holds no strip (R121). -/
theorem Tracker.load_serials (t : Tracker) (side : Nat) (id : W16) (count : Nat) (occupied : List Byte) :
    (t.load side id count occupied).serials.Sublist t.serials := by
  have empty : ((List.range count).map (fun i => if flagOf occupied i then OutSlot.blocked else .empty)).filterMap
      OutSlot.serial? = [] := by
    rw [List.filterMap_eq_nil_iff]
    intro o mem
    obtain ⟨i, -, rfl⟩ := List.mem_map.mp mem
    split <;> rfl
  rw [Tracker.serials_eq, Tracker.serials_eq]
  unfold Tracker.load
  split
  · exact .refl _
  · simp [empty]

theorem doMagld_serialLaw {s : State} (law : s.serialLaw) {p : PortId} {side : Nat} {id : W16} {count : Nat}
    {occupied : List Byte} : (doMagld p side id count occupied s).serialLaw := by
  unfold doMagld
  split
  · exact State.serialLaw_respond law
  split
  · exact State.serialLaw_respond law
  split
  · exact State.serialLaw_respond law
  · exact State.serialLaw_respond (State.serialLaw_of_sublist (Tracker.load_serials ..) law)

theorem doMagul_serialLaw {s : State} (law : s.serialLaw) {p : PortId} {side : Nat} : (doMagul p side s).serialLaw := by
  unfold doMagul
  split
  · exact State.serialLaw_respond law
  split
  · split
    · exact State.serialLaw_respond law
    · refine State.serialLaw_respond ?_
      exact law
  · split
    · exact State.serialLaw_respond law
    · refine State.serialLaw_respond (State.serialLaw_of_tracker (State.post_tracker ..) (State.serialLaw_of_sublist ?_ law))
      simp only [Tracker.serials_eq]
      exact ((List.nil_sublist _).append_left _).append_left _ |>.append_left _

/-- FEED takes a serial that no strip in flight and no stowed strip has (R125). -/
theorem doFeed_serialLaw {s : State} (law : s.serialLaw) {p : PortId} {slot : Nat} {serial : W32} :
    (doFeed p slot serial s).serialLaw := by
  unfold doFeed
  split
  · exact State.serialLaw_respond law
  split
  · exact State.serialLaw_respond law
  split
  · exact State.serialLaw_respond law
  split
  · exact State.serialLaw_respond law
  split
  · exact State.serialLaw_respond law
  rename_i t _ _ _ free new
  have feed : s.tracker.feed = none := by simpa using free
  have absent : serial ∉ s.tracker.serials := by simpa using new
  have fed {input : Option InTable} :
      { s with tracker := { s.tracker with input := input, feed := some (.fed serial slot) } }.tracker.serials
        = serial :: s.tracker.serials := by
    simp [Tracker.serials_eq, feed, StripRecord.fed]
  refine State.serialLaw_respond ?_
  rw [State.serialLaw, fed]
  exact List.nodup_cons.mpr ⟨absent, law⟩

theorem State.releaseZone_serials {s : State} {r : StripRecord} (zone : s.tracker.zone = some r)
    (free : s.tracker.pull = none) (m : StripMap) : (s.releaseZone r m).tracker.serials = s.tracker.serials := by
  have tracker : (s.releaseZone r m).tracker
      = { s.tracker with zone := none, pull := some (r.released m (s.pull.walk m (s.boundProgram m)).created) } := by
    unfold State.releaseZone
    dsimp only
    split <;> simp
  rw [tracker, Tracker.serials_eq, Tracker.serials_eq, zone, free]
  rfl

theorem State.zrelCheck_ok {s : State} {r : StripRecord} {m : StripMap} (ok : s.zrelCheck = .ok (r, m)) :
    s.tracker.zone = some r ∧ s.tracker.pull = none := by
  unfold State.zrelCheck at ok
  (repeat' split at ok) <;> simp_all

theorem doZrel_serialLaw {s : State} (law : s.serialLaw) {p : PortId} : (doZrel p s).serialLaw := by
  unfold doZrel
  split
  · exact State.serialLaw_respond law
  · rename_i r m ok
    obtain ⟨zone, free⟩ := State.zrelCheck_ok ok
    exact State.serialLaw_respond (State.serialLaw_of_serials (State.releaseZone_serials zone free m) law)

/-- An entry without a value replaced by one with a value. -/
theorem perm_filterMap_set {α β : Type} {f : α → Option β} {l : List α} {i : Nat} {x y : α} {b : β}
    (at_ : l[i]? = some x) (without : f x = none) (value : f y = some b) :
    ((l.set i y).filterMap f).Perm (b :: l.filterMap f) := by
  induction l generalizing i with
  | nil => exact nomatch at_
  | cons a l ih =>
    cases i with
    | zero =>
      obtain rfl : a = x := by simpa using at_
      simp [without, value]
    | succ i =>
      have rest := ih at_
      rw [List.set_cons_succ]
      cases e : f a with
      | none => simpa only [List.filterMap_cons_none e] using rest
      | some c =>
        simp only [List.filterMap_cons_some e]
        exact (rest.cons c).trans (.swap b c _)

/-- The strip at PULL changes places with an EMPTY slot of the output table (R132). -/
theorem State.stow_serials {s : State} {r : StripRecord} {t : OutTable} {slot : Nat} (pull : s.tracker.pull = some r)
    (output : s.tracker.output = some t) (empty : t.slots[slot]? = some .empty) :
    (s.stow r t slot).tracker.serials.Perm s.tracker.serials := by
  have tracker : (s.stow r t slot).tracker
      = { s.tracker with output := some { t with slots := t.slots.set slot (.stowed r.stowed) }, pull := none } := by
    unfold State.stow
    dsimp only
    split <;> simp
  have arrived : ((t.slots.set slot (.stowed r.stowed)).filterMap OutSlot.serial?).Perm
      (r.serial :: t.slots.filterMap OutSlot.serial?) := perm_filterMap_set empty rfl rfl
  rw [tracker, Tracker.serials_eq, Tracker.serials_eq, pull, output]
  exact (arrived.append_left _).append_left _

theorem doStow_serialLaw {s : State} (law : s.serialLaw) {p : PortId} {slot : Nat} : (doStow p slot s).serialLaw := by
  unfold doStow
  split
  · exact State.serialLaw_respond law
  rename_i r pull
  split
  · exact State.serialLaw_respond law
  rename_i t output
  split
  · exact State.serialLaw_respond law
  rename_i st at_
  split
  · exact State.serialLaw_respond law
  split
  · exact State.serialLaw_respond law
  rename_i free _
  obtain rfl : st = .empty := Classical.not_not.mp free
  exact State.serialLaw_respond (State.serialLaw_of_perm (State.stow_serials pull output at_) law)

theorem State.serialLaw_setClamp {s : State} (law : s.serialLaw) (c : Clamp) : (s.setClamp c).serialLaw := law

theorem doClamp_serialLaw {s : State} (law : s.serialLaw) {p : PortId} : (doClamp p s).serialLaw := by
  unfold doClamp
  split
  · split
    · exact State.serialLaw_respond (State.serialLaw_setClamp law _)
    · exact State.serialLaw_respond (State.serialLaw_setClamp law _)
  · exact State.serialLaw_respond law
  · exact State.serialLaw_respond law

theorem doCldone_serialLaw {s : State} (law : s.serialLaw) {p : PortId} : (doCldone p s).serialLaw := by
  refine State.serialLaw_respond (State.serialLaw_of_tracker (State.trigger_tracker _) (State.serialLaw_setClamp law _))

theorem doCancel_serialLaw {s : State} (law : s.serialLaw) {p : PortId} {n : Nat} {h : Head} :
    (doCancel p n h s).serialLaw := by
  unfold doCancel
  split
  · exact State.serialLaw_respond law
  · refine State.serialLaw_respond (State.serialLaw_of_tracker (State.trigger_tracker _) ?_)
    exact State.serialLaw_of_serials (State.cancelTicket_serials ..) law

theorem State.serialLaw_cancelAll {s : State} (law : s.serialLaw) (h : Head) (why : StrayReason) (ts : List Ticket) :
    (ts.foldl (fun s t => s.cancelTicket h why t) s).serialLaw :=
  State.serialLaw_of_serials
    (foldl_same (·.tracker.serials) (fun s t => s.cancelTicket h why t) (fun s t => s.cancelTicket_serials h why t) ts s) law

theorem doFreset_serialLaw {s : State} (law : s.serialLaw) {p : PortId} {h : Head} : (doFreset p h s).serialLaw := by
  have cancelled := State.serialLaw_cancelAll law h .freset (s.feed h).tickets
  unfold doFreset
  dsimp only
  split
  · refine State.serialLaw_respond ?_
    exact cancelled
  · refine State.serialLaw_respond (State.serialLaw_of_tracker (State.trigger_tracker _) ?_)
    exact cancelled

theorem State.serialLaw_endPull {s : State} (law : s.serialLaw) {r : PullRecord} {mode PF : Nat} {result : PullResult} :
    (s.endPull r mode PF result).serialLaw := by
  have posted (u : State) (same : u.tracker = s.tracker) (x y : Nat) (n : Notice) :
      (((u.finishRecord x y).post .cc n).post .mh n).serialLaw :=
    State.serialLaw_of_serials (by rw [State.post_tracker, State.post_tracker, State.finishRecord_serials, same]) law
  unfold State.endPull
  dsimp only
  split
  · exact State.serialLaw_of_tracker (State.addReason_tracker ..) (posted _ (by simp) _ _ _)
  · exact posted _ (by simp) _ _ _

theorem doPend_serialLaw {s : State} (law : s.serialLaw) {p : PortId} {id mode : Nat} : (doPend p id mode s).serialLaw := by
  unfold doPend
  split
  · exact State.serialLaw_respond law
  split
  · exact State.serialLaw_respond law
  split
  · exact State.serialLaw_respond law
  · exact State.serialLaw_respond (State.serialLaw_endPull law)

theorem doPvoid_serialLaw {s : State} (law : s.serialLaw) {p : PortId} {id : Nat} : (doPvoid p id s).serialLaw := by
  unfold doPvoid
  split
  · exact State.serialLaw_respond law
  split
  · exact State.serialLaw_respond law
  dsimp only
  refine State.serialLaw_respond (State.serialLaw_of_serials (State.finishRecord_serials ..) (State.serialLaw_of_tracker ?_ law))
  split <;> simp

/-- RESTART discards the strips in flight and keeps the output table (R138). -/
theorem doRestart_serialLaw {s : State} (law : s.serialLaw) {p : PortId} : (doRestart p s).serialLaw := by
  have tracker : (doRestart p s).tracker = s.tracker.restart := by
    simp [doRestart, State.discardWork]
  refine State.serialLaw_of_sublist ?_ law
  rw [tracker, Tracker.serials_eq, Tracker.serials_eq]
  exact (List.sublist_append_right _ _).trans ((List.sublist_append_right _ _).trans (List.sublist_append_right _ _))

theorem withHead_serialLaw {s : State} (law : s.serialLaw) {p : PortId} {f : Head → State → State}
    (keeps : ∀ h, (f h s).serialLaw) : (withHead p f s).serialLaw := by
  unfold withHead
  split
  · exact keeps _
  · exact law

/-- The commands that may change the tracker. -/
def changesTracker : Cmd → Bool
  | .psel | .zone | .magld | .magul | .feed | .zrel | .stow | .clamp | .cldone | .cancel | .freset | .pend | .pvoid
  | .restart => true
  | _ => false

theorem carryOut_tracker {c : Cmd} (h : changesTracker c = false) (p : PortId) (bs : List Byte) (s : State) :
    (carryOut c p bs s).tracker = s.tracker := by
  cases c <;> simp_all [changesTracker, carryOut, withHead_tracker]

theorem carryOut_serialLaw {s : State} (law : s.serialLaw) (c : Cmd) (p : PortId) (bs : List Byte) :
    (carryOut c p bs s).serialLaw := by
  cases hc : changesTracker c with
  | false => exact State.serialLaw_of_tracker (carryOut_tracker hc p bs s) law
  | true =>
    cases c <;> simp only [changesTracker, reduceCtorEq] at hc
    case psel => exact doPsel_serialLaw law
    case zone => exact doZone_serialLaw law
    case magld => exact doMagld_serialLaw law
    case magul => exact doMagul_serialLaw law
    case feed => exact doFeed_serialLaw law
    case zrel => exact doZrel_serialLaw law
    case stow => exact doStow_serialLaw law
    case clamp => exact doClamp_serialLaw law
    case cldone => exact doCldone_serialLaw law
    case cancel => exact withHead_serialLaw law fun _ => doCancel_serialLaw law
    case freset => exact withHead_serialLaw law fun _ => doFreset_serialLaw law
    case pend => exact doPend_serialLaw law
    case pvoid => exact doPvoid_serialLaw law
    case restart => exact doRestart_serialLaw law

theorem State.serialLaw_closeBound {s : State} (law : s.serialLaw) {h : Head} {w : Window} {t : Ticket} {ph : Phase} :
    (s.closeBound h w t ph).serialLaw := by
  have closed {r : BondResult} {x y : Bool} {c : BondCapture} :
      ((((s.commit h t ph r).setCapture h c).reportVerdict h t ph r x y).checkComplete.checkClamp).serialLaw :=
    State.serialLaw_of_serials (State.checkClamp_serials _) (State.serialLaw_of_tracker (by simp) law)
  cases ph with
  | ball => exact closed
  | stitch => exact State.serialLaw_of_tracker (State.trigger_tracker _) closed

theorem State.serialLaw_closeWindow {s : State} (law : s.serialLaw) (h : Head) : (s.closeWindow h).serialLaw := by
  unfold State.closeWindow
  dsimp only
  split
  · exact law
  have gone : ((s.setCapture h { s.capture h with win := false, window := none, armed := none }).emptyHead h).serialLaw :=
    State.serialLaw_of_tracker (State.emptyHead_tracker ..) law
  split
  · exact State.serialLaw_closeBound gone
  · exact State.serialLaw_of_tracker (State.post_tracker ..) gone
  · exact gone

/-- Each taking of a command and each event keeps the serial law. -/
theorem State.keeps_serialLaw : Keeps State.serialLaw where
  port _ _ _ _ law := law
  screen _ _ law := law
  pending _ _ law := law
  command c p bs _ law := carryOut_serialLaw law c p bs
  group _ _ _ _ law := State.serialLaw_of_tracker (State.takePwireGroup_tracker ..) law
  arbiter _ law := State.serialLaw_of_tracker (doArbiterServe_tracker _) law
  fill _ law := State.serialLaw_of_tracker (doFillServe_tracker _) law
  opens _ _ _ law := State.serialLaw_of_tracker (State.openWindow_tracker ..) law
  closes h _ _ law := State.serialLaw_closeWindow law h
  holdOn _ law := State.serialLaw_of_tracker (State.addReason_tracker ..) law
  holdOff _ law := State.serialLaw_of_tracker (State.removeReasons_tracker ..) law
  rst _ _ := List.nodup_nil
  address _ _ _ law := State.serialLaw_of_tracker (State.goodWord_tracker ..) law
  data _ _ _ law := State.serialLaw_of_tracker (doDataWord_tracker ..) law
  framing _ _ law := State.serialLaw_of_tracker (doFramingError_tracker ..) law
  expiry _ _ _ law := State.serialLaw_of_tracker (doAbsenceExpiry_tracker ..) law
  rest _ _ law := law

end Sys2Proof.Machine
end

section
/-! The region law (R169): what drawing and the commands do to the regions, and so every step; with it, the statement about the
three laws. -/

namespace Sys2Proof.Machine

/-! ### The regions (R169) -/

/-- The region law reads the regions only. -/
theorem State.regionLaw_of_regions {s t : State} (same : t.screen.regions = s.screen.regions) (law : s.regionLaw) :
    t.regionLaw := by
  have at_ : ∀ i, t.screen.region? i = s.screen.region? i := fun i => by simp only [Screen.region?, same]
  simpa only [State.regionLaw, at_] using law

theorem State.regionLaw_of_screen {s t : State} (same : t.screen = s.screen) (law : s.regionLaw) : t.regionLaw :=
  State.regionLaw_of_regions (congrArg Screen.regions same) law

theorem Region.overlaps_comm (r q : Region) : r.overlaps q = q.overlaps r := by
  simp only [Region.overlaps, decide_eq_decide]
  constructor <;> rintro ⟨a, b, c, d⟩ <;> exact ⟨b, a, d, c⟩

theorem Screen.region?_setIfInBounds (c : Screen) (i : Nat) (o : Option Region) (inside : i < 8) (j : Nat) :
    ({ c with regions := c.regions.setIfInBounds i o }).region? j = if j = i then o else c.region? j := by
  unfold Screen.region?
  dsimp only
  rw [Vector.getElem?_setIfInBounds]
  by_cases h : i = j
  · subst h
    simp [inside]
  · rw [if_neg h, if_neg (Ne.symm h)]

/-! #### The screen's own operations -/

theorem Screen.regions_write (c : Screen) (b : Banner) (row col : Nat) (x : Cell) :
    (c.write b row col x).regions = c.regions := by
  unfold Screen.write
  split
  · rfl
  · dsimp only
    split <;> rfl

/-- The regions stay where no step of a fold over the screen changes them. -/
theorem Screen.regions_foldl {α : Type} {f : Screen → α → Screen} (keeps : ∀ c x, (f c x).regions = c.regions)
    (l : List α) (c : Screen) : (l.foldl f c).regions = c.regions := by
  induction l generalizing c with
  | nil => rfl
  | cons x l ih => exact (ih _).trans (keeps c x)

theorem Screen.regions_render (c : Screen) (b : Banner) (r : Region) (a : Attr) (lines : List (List Byte)) :
    (c.render b r a lines).regions = c.regions :=
  Screen.regions_foldl (fun c _ => Screen.regions_foldl (fun c _ => c.regions_write b _ _ _) _ c) _ c

theorem Screen.regions_refresh (c : Screen) (b : Banner) (old new : State) (r : Option Region) :
    (c.refresh b old new r).regions = c.regions := by
  unfold Screen.refresh
  split
  · split
    · rfl
    · exact Screen.regions_render ..
  · rfl

theorem State.regions_redraw (old new : State) : (old.redraw new).regions = new.screen.regions := by
  refine (Screen.regions_foldl (fun c r => c.regions_refresh _ old new r) _ _).trans ?_
  split <;> rfl

theorem Screen.regions_load (c : Screen) : c.load.regions = c.regions := by
  unfold Screen.load
  split <;> rfl

theorem Screen.regions_pass (c : Screen) : c.pass.regions = c.regions := by
  unfold Screen.pass
  split <;> rfl

theorem Screen.regions_startRow (c : Screen) (b : Banner) (row : Nat) : (c.startRow b row).regions = c.regions := by
  rw [Screen.startRow, Screen.regions_load, Screen.regions_pass, Screen.regions_load]

theorem Screen.regions_kick (c : Screen) (b : Banner) : (c.kick b).regions = c.regions := by
  unfold Screen.kick
  split
  · split
    · exact Screen.regions_startRow ..
    · rfl
  · rfl

theorem Screen.regions_notReady (c : Screen) : c.notReady.regions = c.regions := by
  unfold Screen.notReady
  split <;> rfl

theorem Screen.regions_byteSent (c : Screen) (b : Banner) : (c.byteSent b).regions = c.regions := by
  unfold Screen.byteSent
  split
  · rfl
  · unfold Screen.endTransfer
    split
    · rw [Screen.regions_kick]
      exact (Screen.regions_load _).trans (Screen.regions_pass _)
    · exact (Screen.regions_load _).trans (Screen.regions_pass _)

theorem State.regions_finish (old new : State) : (old.finish new).screen.regions = new.screen.regions := by
  unfold State.finish
  dsimp only
  split
  · exact State.regions_redraw old new
  · exact (Screen.regions_kick ..).trans (State.regions_redraw old new)

theorem State.regions_takeText (s : State) (p : PortId) (i col row : Nat) (attr : Attr) (ch : Byte) :
    (s.takeText p i col row attr ch).screen.regions = s.screen.regions := by
  unfold State.takeText
  split
  · rfl
  · exact Screen.regions_write ..

/-! #### RGDEF and RGDEL -/

theorem State.regions_defineRegion (s : State) (i : Nat) (r : Region) :
    (s.defineRegion i r).screen.regions = s.screen.regions.setIfInBounds i (some r) := by
  unfold State.defineRegion
  dsimp only
  split
  · exact Screen.regions_render ..
  · rfl

/-- A region that does not clash with a defined one shares no cell with any (R170). -/
theorem Screen.overlaps_of_not_clashes {c : Screen} {r q : Region} (apart : c.clashes r = false) {j : Nat}
    (defined : c.region? j = some q) : r.overlaps q = false := by
  have mem : some q ∈ c.regions.toList := (c.mem_regions q).mpr ⟨j, defined⟩
  rw [Screen.clashes, List.any_eq_false] at apart
  simpa using apart _ mem

theorem State.regionLaw_defineRegion {s : State} (law : s.regionLaw) {i : Nat} {r : Region} (inside : i < 8)
    (size : 1 ≤ r.width ∧ 1 ≤ r.height ∧ r.left + r.width ≤ Config.columns ∧ r.top + r.height ≤ Config.rows)
    (apart : s.screen.clashes r = false) : (s.defineRegion i r).regionLaw := by
  obtain ⟨sizes, others⟩ := law
  refine State.regionLaw_of_regions
    (s := { s with screen := { s.screen with regions := s.screen.regions.setIfInBounds i (some r) } })
    (State.regions_defineRegion s i r) ⟨fun j q => ?_, fun j k q q' ne => ?_⟩
  · rw [Screen.region?_setIfInBounds _ _ _ inside]
    split
    · rintro ⟨⟩
      exact size
    · exact sizes j q
  · rw [Screen.region?_setIfInBounds _ _ _ inside, Screen.region?_setIfInBounds _ _ _ inside]
    split <;> split
    · omega
    · rintro ⟨⟩ defined
      exact Screen.overlaps_of_not_clashes apart defined
    · rintro defined ⟨⟩
      rw [Region.overlaps_comm]
      exact Screen.overlaps_of_not_clashes apart defined
    · exact others j k q q' ne

theorem doRgdef_regionLaw {s : State} (law : s.regionLaw) {p : PortId} {i owner kind left top width height : Nat}
    {attr : Byte} : (doRgdef p i owner kind left top width height attr s).regionLaw := by
  unfold doRgdef
  dsimp only
  split
  · exact State.regionLaw_of_screen (State.refuse_screen ..) law
  rename_i named
  split
  · exact State.regionLaw_of_screen (State.refuse_screen ..) law
  split
  · exact State.regionLaw_of_screen (State.refuse_screen ..) law
  rename_i size
  split
  · exact State.regionLaw_of_screen (State.refuse_screen ..) law
  split
  · exact State.regionLaw_of_screen (State.refuseState_screen ..) law
  rename_i apart
  split
  · exact State.regionLaw_of_screen (State.refuse_screen ..) law
  refine State.regionLaw_of_screen (State.respond_screen ..) (State.regionLaw_defineRegion law ?_ ?_ ?_)
  · omega
  · dsimp only
    omega
  · simpa using apart

theorem doRgdel_regionLaw {s : State} (law : s.regionLaw) {p : PortId} {i : Nat} : (doRgdel p i s).regionLaw := by
  unfold doRgdel
  split
  · exact State.regionLaw_of_screen (State.refuse_screen ..) law
  rename_i named
  split
  · exact State.regionLaw_of_screen (State.refuse_screen ..) law
  obtain ⟨sizes, others⟩ := law
  have kept (j : Nat) (q : Region) :
      ({ s.screen with regions := s.screen.regions.setIfInBounds i none }).region? j = some q →
        s.screen.region? j = some q := by
    rw [Screen.region?_setIfInBounds _ _ _ (by omega)]
    split
    · exact nofun
    · exact id
  dsimp only
  refine State.regionLaw_of_screen (State.respond_screen ..) ⟨fun j q defined => ?_, fun j k q q' ne defined other => ?_⟩
  · exact sizes j q (kept j q defined)
  · exact others j k q q' ne (kept j q defined) (kept k q' other)

/-- Every command but RGDEF and RGDEL leaves the screen at its taking. -/
theorem carryOut_screen {c : Cmd} (def_ : c ≠ .rgdef) (del : c ≠ .rgdel) (p : PortId) (bs : List Byte) (s : State) :
    (carryOut c p bs s).screen = s.screen := by
  cases c <;> simp_all [carryOut, withHead_screen]

theorem carryOut_regionLaw {s : State} (law : s.regionLaw) (c : Cmd) (p : PortId) (bs : List Byte) :
    (carryOut c p bs s).regionLaw := by
  by_cases def_ : c = .rgdef
  · subst def_
    exact doRgdef_regionLaw law
  by_cases del : c = .rgdel
  · subst del
    exact doRgdel_regionLaw law
  · exact State.regionLaw_of_screen (carryOut_screen def_ del p bs s) law

/-! #### Bytes and steps -/

theorem State.regionLaw_finish {new : State} (law : new.regionLaw) (old : State) : (old.finish new).regionLaw :=
  State.regionLaw_of_regions (State.regions_finish old new) law

theorem State.regionLaw_takeAtomic {s : State} (law : s.regionLaw) (p : PortId) (c : Cmd) (bs : List Byte) :
    (s.takeAtomic p c (carryOut c p bs)).regionLaw := by
  unfold State.takeAtomic
  split
  · exact carryOut_regionLaw law c p bs
  · exact State.regionLaw_of_screen (State.refuse_screen ..) law

theorem State.regionLaw_paramByte {s : State} (law : s.regionLaw) (p : PortId) (d : Byte) : (s.paramByte p d).regionLaw := by
  unfold State.paramByte
  dsimp only
  split
  case h_6 =>
    split
    · exact law
    · exact State.regionLaw_takeAtomic (State.regionLaw_of_screen (by rfl) law) _ _ _
  case h_10 => exact State.regionLaw_of_regions (State.regions_takeText ..) law
  all_goals exact State.regionLaw_of_screen (by (try split) <;> simp) law

theorem State.regionLaw_byteEvent {s : State} (law : s.regionLaw) (p : PortId) (d : Byte) : (s.byteEvent p d).regionLaw := by
  unfold State.byteEvent
  split
  · exact law
  · exact State.regionLaw_finish (State.regionLaw_paramByte law p d) s

theorem State.regionLaw_deliver {s : State} (law : s.regionLaw) (p : PortId) (bs : List Byte) : (s.deliver p bs).regionLaw := by
  induction bs generalizing s with
  | nil => exact law
  | cons b bs ih => exact ih (State.regionLaw_byteEvent law p b)

theorem State.released_regionLaw (lines : LineLevels) (pending : List Instr) :
    (State.released lines pending).regionLaw := by
  have regions : (State.released lines pending).screen.regions = Vector.replicate 8 none := by
    show (Screen.released lines.pnlrdy (Hold.released lines.holdin).banner).regions = _
    unfold Screen.released
    split
    · exact Screen.regions_kick ..
    · rfl
  have undefined (i : Nat) : (State.released lines pending).screen.region? i = none := by
    rw [Screen.region?, regions, Vector.getElem?_replicate]
    split <;> rfl
  constructor
  · intro i r defined
    exact nomatch (undefined i).symm.trans defined
  · intro i j r q _ defined
    exact nomatch (undefined i).symm.trans defined

theorem exec_regionLaw {i : Instr} {s t : State} (law : s.regionLaw) (e : exec i s = .next t) : t.regionLaw := by
  cases hc : i.command? with
  | some x =>
    obtain ⟨p, c⟩ := x
    rw [exec_command hc] at e
    cases e
    refine State.regionLaw_finish ?_ s
    unfold State.atomicRow
    split
    · exact law
    · exact State.regionLaw_takeAtomic (State.regionLaw_of_screen (State.setPort_screen ..) law) _ _ _
  | none =>
    cases i <;> simp only [Instr.command?, reduceCtorEq] at hc
    case rst => cases e; exact State.released_regionLaw _ _
    case readoutByte => cases e; exact State.regionLaw_byteEvent law _ _
    case wtxtTextByte => cases e; exact State.regionLaw_deliver law _ _
    case pwireGroup => cases e; exact State.regionLaw_deliver law _ _
    case pwire =>
      simp only [exec, execPwire] at e
      split at e <;> cases e
      · exact State.regionLaw_deliver law _ _
      · exact State.regionLaw_deliver (State.regionLaw_of_screen (State.commandByte_screen ..) law) _ _
    case wtxt =>
      simp only [exec, execWtxt] at e
      split at e <;> cases e
      · exact State.regionLaw_deliver law _ _
      · exact State.regionLaw_deliver (State.regionLaw_of_screen (State.commandByte_screen ..) law) _ _
    case unknownCommand =>
      simp only [exec, execUnknownCommand] at e
      split at e <;> cases e
      exact State.regionLaw_finish (State.regionLaw_of_screen (by split <;> simp) law) s
    case commandByte =>
      simp only [exec, execCommandByte] at e
      split at e <;> cases e
      exact State.regionLaw_finish (State.regionLaw_of_screen (State.commandByte_screen ..) law) s
    case selectRelease =>
      simp only [exec, execSelectRelease] at e
      split at e <;> cases e
      exact State.regionLaw_finish law s
    case pnlrdyRise =>
      cases e
      refine State.regionLaw_finish ?_ s
      split
      · exact law
      · exact State.regionLaw_of_regions (Screen.regions_kick ..) law
    case pnlrdyFall =>
      cases e
      refine State.regionLaw_finish ?_ s
      split
      · exact State.regionLaw_of_regions (Screen.regions_notReady _) law
      · exact law
    case dlByteSent =>
      cases e
      exact State.regionLaw_finish (State.regionLaw_of_regions (Screen.regions_byteSent ..) law) s
    all_goals
      cases e
      exact State.regionLaw_finish (State.regionLaw_of_screen (by (try split) <;> simp) law) s

theorem step_regionLaw {s t : State} (law : s.regionLaw) (e : step s = .next t) : t.regionLaw := by
  unfold step at e
  split at e
  · cases e
    exact law
  · refine exec_regionLaw ?_ e
    exact law

/-- Settles O59: each taking and each event keeps each of the three laws. -/
theorem stepKeepsTimerRegionAndSerialLaws : Obligations.StepKeepsTimerRegionAndSerialLaws := fun s t e =>
  ⟨fun law => State.keeps_timerLaw.step s t law e, fun law => step_regionLaw law e,
    fun law => State.keeps_serialLaw.step s t law e⟩

end Sys2Proof.Machine
end

section
/-! A broken word, an absence expiry and the return to rest on a link (R67, R69, R75, R77), and the bits of a word on the line. -/

namespace Sys2Proof.Machine

/-! ### The end of an event on a link -/

/-- Nothing is drawn where no block that a field shows has changed. -/
theorem State.finish_setLink (s : State) (l : Link) (r : Receiver) : s.finish (s.setLink l r) = s.setLink l r :=
  State.finish_self rfl (State.fieldText_congr rfl rfl rfl rfl rfl rfl) rfl

theorem State.finish_receiving (s new : State) (l : Link) (bits : List Bool) :
    (s.receiving l bits).finish new = s.finish new :=
  State.finish_congr rfl (State.fieldText_congr rfl rfl rfl rfl rfl rfl) rfl

theorem State.finish_goodWord (s : State) (l : Link) (interpret : Receiver → Receiver) :
    s.finish (s.goodWord l interpret) = s.goodWord l interpret :=
  State.finish_self (by simp) (State.fieldText_congr (by simp) (by simp) (by simp) (by simp) (by simp) (by simp)) (by simp)

/-! ### The bits of a word on the line -/

theorem State.receiving_nil {s : State} {l : Link} (idle : (s.link l).assembling = []) : s.receiving l [] = s := by
  rw [State.receiving, ← idle]
  exact State.setLink_link s l

/-- Bits fewer than a word only join the assembling word (R67). -/
theorem State.linkBits_partial {s : State} {l : Link} (rest : (s.link l).atRest = true)
    (idle : (s.link l).assembling = []) {word : List Bool} (short : word.length ≤ 33) :
    ([false] ++ word).foldl (fun t level => t.linkBit l level) s = s.receiving l ([false] ++ word) := by
  have bits := State.linkBits s l rest word short
  rwa [State.receiving_nil idle] at bits

/-- The thirty-five bits of a word complete it (R67 to R69). -/
theorem State.linkBits_whole {s : State} {l : Link} (rest : (s.link l).atRest = true)
    (idle : (s.link l).assembling = []) {word : List Bool} (length : word.length = 33) (stop : Bool) :
    ([false] ++ word ++ [stop]).foldl (fun t level => t.linkBit l level) s
      = s.finish (s.completeWord l ([false] ++ word ++ [stop])) := by
  rw [List.foldl_append, State.linkBits_partial rest idle (by omega)]
  show (s.receiving l ([false] ++ word)).linkBit l stop = _
  rw [State.linkBit_last s l _ _ rest (by simp [length]), State.receiving_nil idle, State.finish_receiving]

/-- The bit that a receiver takes as the stop bit (section 11.8). -/
theorem getD_stop {word : List Bool} (length : word.length = 33) (stop rest : Bool) :
    ([false] ++ word ++ [stop]).getD 34 rest = stop := by
  have inside : ([false] ++ word).length = 34 := by rw [List.length_append, length]; rfl
  rw [List.getD_eq_getElem?_getD, List.getElem?_append_right (by omega), inside]
  rfl

theorem State.completeWord_good (s : State) (l : Link) {word : List Bool} (length : word.length = 33) :
    s.completeWord l ([false] ++ word ++ [true]) = s.takeWord l (.ofBits ([false] ++ word ++ [true])) := by
  rw [State.completeWord, getD_stop length]
  rfl

theorem State.completeWord_broken (s : State) (l : Link) {word : List Bool} (length : word.length = 33) :
    s.completeWord l ([false] ++ word ++ [false]) = doFramingError l s := by
  rw [State.completeWord, getD_stop length]
  rfl

/-! ### Marks, absence and rest -/

/-- A mark reaches a window capture that is not silenced (R113). -/
theorem Window.mark_live (f : Window → Window) :
    (fun w : Window => if w.live then f w else w) = fun w => if w.binding = .silenced then w else f w := by
  funext w
  by_cases silenced : w.binding = .silenced <;> simp [Window.live, silenced]

theorem Window.live_flag (o : Option Window) :
    (o.map Window.live).getD false = match o with | some w => decide (w.binding ≠ .silenced) | none => false := by
  cases o with
  | none => rfl
  | some w => by_cases silenced : w.binding = .silenced <;> simp [Window.live, silenced]

/-- No field shows a mark. -/
theorem State.fieldText_markLink (s : State) (l : Link) (window : Window → Window) (pull : PullCapture → PullCapture)
    (k : FieldKind) : (s.markLink l window pull).fieldText k = s.fieldText k := by
  cases l <;> cases k <;> rfl

theorem State.finish_doFramingError (s : State) (l : Link) : s.finish (doFramingError l s) = doFramingError l s := by
  refine State.finish_self (by simp) (fun k => ?_) (by simp)
  exact (s.fieldText_markLink l _ _ k).symm.trans (State.fieldText_congr rfl rfl rfl rfl rfl rfl k)

theorem State.finish_doAbsenceExpiry (s : State) (l : Link) : s.finish (doAbsenceExpiry l s) = doAbsenceExpiry l s := by
  refine State.finish_self (by simp) (fun k => ?_) (by simp)
  refine (s.fieldText_markLink l Window.markAbsence (fun k => { k with absence := true }) k).symm.trans
    (State.fieldText_congr ?_ ?_ ?_ ?_ ?_ ?_ k) <;> simp [doAbsenceExpiry]

theorem exec_framingError {s : State} {l : Link} (rest : (s.link l).atRest = true) :
    exec (.framingError l) s = .next (doFramingError l s) := by
  show Host.Outcome.next (s.finish (if _ then _ else _)) = _
  rw [if_pos rest, State.finish_doFramingError]

theorem exec_framingError_of_waiting {s : State} {l : Link} (waits : (s.link l).atRest = false) :
    exec (.framingError l) s = .next s := by
  show Host.Outcome.next (s.finish (if _ then _ else _)) = _
  rw [if_neg (by simp [waits]), State.finish_same]

theorem exec_absenceExpiry {s : State} {l : Link} (runs : (s.link l).timer.isSome = true) :
    exec (.absenceExpiry l) s = .next (doAbsenceExpiry l s) := by
  show Host.Outcome.next (s.finish (if _ then _ else _)) = _
  rw [if_pos runs, State.finish_doAbsenceExpiry]

theorem exec_absenceExpiry_of_stopped {s : State} {l : Link} (stopped : (s.link l).timer = none) :
    exec (.absenceExpiry l) s = .next s := by
  show Host.Outcome.next (s.finish (if _ then _ else _)) = _
  rw [if_neg (by simp [stopped]), State.finish_same]

theorem exec_lineReturnsToRest (s : State) (l : Link) :
    exec (.lineReturnsToRest l) s = .next (s.setLink l { s.link l with atRest := true }) :=
  congrArg Host.Outcome.next (s.finish_setLink l _)

/-- The thirty-five bits of a broken word do what its row does (R67, R69). -/
theorem exec_framingError_bits {s : State} {l : Link} (rest : (s.link l).atRest = true)
    (idle : (s.link l).assembling = []) {word : List Bool} (length : word.length = 33) :
    exec (.framingError l) s = .next (([false] ++ word ++ [false]).foldl (fun t level => t.linkBit l level) s) := by
  rw [exec_framingError rest, State.linkBits_whole rest idle length, State.completeWord_broken s l length,
    State.finish_doFramingError]

/-- A receiver that waits for its line to rest (R67). -/
theorem State.linkBit_of_waiting {s : State} {l : Link} (waits : (s.link l).atRest = false) (level : Bool) :
    s.linkBit l level = if level then s.setLink l { s.link l with atRest := true } else s := by
  simp only [State.linkBit, waits, linkRest, Bool.not_false, if_true]
  rfl

/-- The resting level between words (R67). -/
theorem State.linkBit_at_rest {s : State} {l : Link} (rest : (s.link l).atRest = true) (idle : (s.link l).assembling = []) :
    s.linkBit l true = s := by
  unfold State.linkBit
  simp [rest, idle, linkRest]

/-- Settles O33, row by row, and then bit by bit. -/
theorem brokenAndSilentLinks : Obligations.BrokenAndSilentLinks := by
  intro l s
  refine ⟨fun rest => ?framing, exec_framingError_of_waiting, fun runs => ?expiry, exec_absenceExpiry_of_stopped,
    exec_lineReturnsToRest s l, fun word rest idle length => exec_framingError_bits rest idle length, fun waits => ?waiting,
    State.linkBit_at_rest⟩
  case framing =>
    rw [exec_framingError rest]
    cases l <;> simp only [doFramingError, State.markLink, Window.mark_live] <;> rfl
  case expiry =>
    rw [exec_absenceExpiry runs]
    cases l <;> simp only [doAbsenceExpiry, State.markLink, Window.mark_live, State.windowFlag, Window.live_flag] <;> rfl
  case waiting =>
    rw [exec_lineReturnsToRest, State.linkBit_of_waiting waits, State.linkBit_of_waiting waits]
    exact ⟨rfl, rfl⟩

end Sys2Proof.Machine
end

section
/-! A good word on a link (R68, R76, R78), where the samples of a data word go (R70 to R74), and the bits of a good word. -/

namespace Sys2Proof.Machine

/-! ### Good words -/

/-- A good word on a PRESENT link restarts a timer that runs (R76). -/
theorem State.goodWord_of_present {s : State} {l : Link} (present : (s.link l).present = true)
    (interpret : Receiver → Receiver) :
    s.goodWord l interpret = s.setLink l (interpret
      { s.link l with timer := if (s.link l).timer.isSome then some (s.link l).timeout else none }) := by
  have restarted : (s.link l).timer.map (fun _ => (s.link l).timeout)
      = if (s.link l).timer.isSome then some (s.link l).timeout else none := by
    cases (s.link l).timer <;> rfl
  simp only [State.goodWord, Receiver.goodWord, present, if_true, restarted]

/-- A good word brings an ABSENT link back (R78). -/
theorem State.goodWord_of_absent {s : State} {l : Link} (absent : (s.link l).present = false) {r : Receiver}
    {interpret : Receiver → Receiver}
    (returned : interpret { s.link l with
      present := true, timer := if s.linkEnabled l then some (s.link l).timeout else none } = r) :
    s.goodWord l interpret = (s.setLink l r).postLink l (.linkBack l r.selection r.packing) := by
  simp only [State.goodWord, Receiver.goodWord, absent, Bool.false_eq_true, if_false, returned]

theorem packingOf_eq (code : Nat) : packingOf code = match code with | 1 => .pair | 2 => .split | _ => .single := by
  match code with
  | 0 | 1 | 2 | _ + 3 => rfl

theorem signed16_mod (n : Nat) : signed16 (n % 65536) = (BitVec.ofNat 16 n).toInt := by
  have same : BitVec.ofNat 16 (n % 65536) = BitVec.ofNat 16 n := BitVec.eq_of_toNat_eq (by simp)
  rw [signed16, same]

/-- The channel that each link and selection name (R71, R72). -/
theorem routeChan_eq (l : Link) (sel : Selection) :
    routeChan l sel =
      match l, sel with
      | .slA, .z => some .az
      | .slA, .us => some .aus
      | .slB, .z => some .bz
      | .slB, .us => some .bus
      | .slP, .force => some .pf
      | _, _ => none := by
  cases l <;> cases sel <;> rfl

/-- The samples of a data word by link and packing (R72, R73). -/
theorem routed_eq (l : Link) (sel : Selection) (pk : Packing) (low high : Int) :
    routed l sel pk low high =
      match l, pk with
      | .slA, .split => [(.az, low), (.aus, high)]
      | .slB, .split => [(.bz, low), (.bus, high)]
      | .slP, .split => [(.pf, low)]
      | _, .single => (routeChan l sel).toList.map (fun c => (c, low))
      | _, .pair => (routeChan l sel).toList.flatMap (fun c => [(c, low), (c, high)]) := by
  cases l <;> cases pk <;> cases sel <;> rfl

theorem exec_addressWord {s : State} {l : Link} (rest : (s.link l).atRest = true) (w : W32) :
    exec (.addressWord l w) s = .next (s.goodWord l fun r => r.address l w) := by
  show Host.Outcome.next (s.finish (if _ then _ else _)) = _
  rw [if_pos rest, State.finish_goodWord]

theorem exec_addressWord_of_waiting {s : State} {l : Link} (waits : (s.link l).atRest = false) (w : W32) :
    exec (.addressWord l w) s = .next s := by
  show Host.Outcome.next (s.finish (if _ then _ else _)) = _
  rw [if_neg (by simp [waits]), State.finish_same]

theorem exec_dataWord {s : State} {l : Link} (rest : (s.link l).atRest = true) (w : W32) :
    exec (.dataWord l w) s = .next (s.finish (doDataWord l w s)) := by
  show Host.Outcome.next (s.finish (if _ then _ else _)) = _
  rw [if_pos rest]

theorem exec_dataWord_of_waiting {s : State} {l : Link} (waits : (s.link l).atRest = false) (w : W32) :
    exec (.dataWord l w) s = .next s := by
  show Host.Outcome.next (s.finish (if _ then _ else _)) = _
  rw [if_neg (by simp [waits]), State.finish_same]

theorem doDataWord_eq (s : State) (l : Link) (w : W32) :
    doDataWord l w s = (routed l (s.link l).selection (s.link l).packing (BitVec.ofNat 16 w.toNat).toInt
      (BitVec.ofNat 16 (w.toNat / 65536)).toInt).foldl (fun t x => t.sample x.1 x.2) (s.goodWord l id) := by
  rw [doDataWord, signed16_mod]
  rfl

/-! ### The bits of a good word -/

/-- The bits of a word between its start bit and its stop bit (section 11.8). -/
def wordBits (flag : Bool) (w : W32) : List Bool :=
  flag :: ((List.range 16).map (fun k => w.getLsbD (15 - k)) ++ (List.range 16).map (fun k => w.getLsbD (31 - k)))

theorem length_wordBits (flag : Bool) (w : W32) : (wordBits flag w).length = 33 := by simp [wordBits]

theorem ofBits_wordBits (flag stop : Bool) (w : W32) :
    LinkWord.ofBits ([false] ++ wordBits flag w ++ [stop]) = { isAddress := flag, payload := w } :=
  word_ofBits flag stop w

/-- The bits of a good word do what the word does (R67, R68). -/
theorem State.linkBits_good {s : State} {l : Link} (rest : (s.link l).atRest = true) (idle : (s.link l).assembling = [])
    (flag : Bool) (w : W32) :
    ([false] ++ wordBits flag w ++ [true]).foldl (fun t level => t.linkBit l level) s
      = s.finish (s.takeWord l { isAddress := flag, payload := w }) := by
  rw [State.linkBits_whole rest idle (length_wordBits flag w), State.completeWord_good s l (length_wordBits flag w),
    ofBits_wordBits]

theorem State.linkBits_take {s : State} {l : Link} (rest : (s.link l).atRest = true) (idle : (s.link l).assembling = [])
    {word : List Bool} (length : word.length = 33) (stop : Bool) {n : Nat} (fewer : n < 35) :
    (([false] ++ word ++ [stop]).take n).foldl (fun t level => t.linkBit l level) s
      = s.receiving l (([false] ++ word ++ [stop]).take n) := by
  cases n with
  | zero => exact (State.receiving_nil idle).symm
  | succ n =>
    have begun : ([false] ++ word ++ [stop]).take (n + 1) = [false] ++ word.take n := by
      rw [List.take_append_of_le_length (by simp [length]; omega)]
      rfl
    rw [begun]
    exact State.linkBits_partial rest idle (by rw [List.length_take]; omega)

/-- Settles O31, by the presence of the link, and then bit by bit. -/
theorem wordsReachTheirChannels : Obligations.WordsReachTheirChannels := by
  intro l w s
  refine ⟨fun rest present => ?_, fun rest absent => ?_, fun rest present => ?_, fun rest absent => ?_,
    fun waits => ⟨exec_addressWord_of_waiting waits w, exec_dataWord_of_waiting waits w⟩,
    fun rest idle => ⟨?_, ?_, fun flag n fewer => ?_⟩⟩
  · rw [exec_addressWord rest, State.goodWord_of_present present]
    simp only [Receiver.address, packingOf_eq]
    rfl
  · rw [exec_addressWord rest, State.goodWord_of_absent absent rfl]
    simp only [Receiver.address, packingOf_eq]
    rfl
  · rw [exec_dataWord rest, doDataWord_eq, State.goodWord_of_present present, routed_eq, routeChan_eq]
    rfl
  · rw [exec_dataWord rest, doDataWord_eq, State.goodWord_of_absent absent rfl, routed_eq, routeChan_eq]
    rfl
  · rw [exec_addressWord rest, ← State.finish_goodWord]
    exact congrArg Host.Outcome.next (State.linkBits_good rest idle true w).symm
  · rw [exec_dataWord rest]
    exact congrArg Host.Outcome.next (State.linkBits_good rest idle false w).symm
  · exact State.linkBits_take rest idle (length_wordBits flag w) true fewer

end Sys2Proof.Machine
end

section
/-! Signal conditioning (R81 to R88, R91, R96): the rounding shift, CHCFG, and the path of a sample to the touch detector and
the captures. -/

namespace Sys2Proof.Machine

/-! ### The rounding shift (R84) -/

theorem roundShift_of_pos {S : Nat} (pos : 1 ≤ S) (y : Int) : roundShift S y = (y + 2 ^ (S - 1)) / 2 ^ S :=
  if_neg (by omega)

theorem roundShift_succ (S : Nat) (y : Int) : roundShift (S + 1) y = (y + 2 ^ S) / 2 ^ (S + 1) :=
  roundShift_of_pos (Nat.succ_pos S) y

/-- The quotient is the one integer whose multiple of `2 ^ S` the rounded value lies at or above, by less than `2 ^ S`. -/
theorem roundShift_eq_iff {S : Nat} (pos : 1 ≤ S) (y r : Int) :
    roundShift S y = r ↔ r * 2 ^ S ≤ y + 2 ^ (S - 1) ∧ y + 2 ^ (S - 1) < (r + 1) * 2 ^ S := by
  have divisor : (0 : Int) < 2 ^ S := Int.pow_pos (by decide)
  rw [roundShift_of_pos pos, ← Int.le_ediv_iff_mul_le divisor, ← Int.ediv_lt_iff_lt_mul divisor]
  omega

theorem le_roundShift {S : Nat} {y lo : Int} (zero : lo ≤ 0) (below : lo ≤ y) : lo ≤ roundShift S y := by
  cases S with
  | zero => exact below
  | succ S =>
    have half : (0 : Int) < 2 ^ S := Int.pow_pos (by decide)
    have divisor : (0 : Int) < 2 ^ (S + 1) := Int.pow_pos (by decide)
    have scaled : lo * 2 ^ (S + 1) ≤ lo * 1 := Int.mul_le_mul_of_nonpos_left zero divisor
    rw [roundShift_succ, Int.le_ediv_iff_mul_le divisor]
    omega

theorem roundShift_le {S : Nat} {y hi : Int} (zero : 0 ≤ hi) (above : y ≤ hi) : roundShift S y ≤ hi := by
  cases S with
  | zero => exact above
  | succ S =>
    have divisor : (0 : Int) < 2 ^ (S + 1) := Int.pow_pos (by decide)
    have half : (2 : Int) ^ (S + 1) = 2 ^ S * 2 := Int.pow_succ 2 S
    have scaled : hi * 1 ≤ hi * 2 ^ (S + 1) := Int.mul_le_mul_of_nonneg_left divisor zero
    rw [roundShift_succ, ← Int.lt_add_one_iff, Int.ediv_lt_iff_lt_mul divisor, Int.add_mul, Int.one_mul]
    omega

/-- Settles O34, by the bounds of the quotient. -/
theorem roundingShift : Obligations.RoundingShift :=
  ⟨fun _ => rfl, fun _ _ _ pos _ low high => (roundShift_eq_iff pos _ _).mpr ⟨low, high⟩, rfl, rfl, rfl, rfl, rfl,
    fun _ _ _ _ lo0 hi0 low high => ⟨le_roundShift lo0 low, roundShift_le hi0 high⟩⟩

/-! ### CHCFG (R76, R81, R82) -/

theorem chcfgOk_iff (c : ChanId) (flags d sh metric t n timeout : Nat) :
    chcfgOk c flags d sh metric t n timeout = true ↔
      flags ≤ 1 ∧ 1 ≤ d ∧ d ≤ 32 ∧ sh ≤ 15 ∧ metric ≤ 15 ∧ 8 ≤ timeout ∧ timeout ≤ 1020
        ∧ (c ≠ .pf → 1 ≤ t ∧ t ≤ 8388607 ∧ 1 ≤ n) :=
  decide_eq_true_iff

theorem ChanId.ofCode?_eq_none {code : Nat} (big : 4 < code) : ChanId.ofCode? code = none := by
  simp only [ChanId.ofCode?]
  repeat rw [if_neg (by omega)]

theorem ChanId.ofCode?_eq_some {code : Nat} {c : ChanId}
    (named : c = match code with | 0 => .az | 1 => .aus | 2 => .bz | 3 => .bus | _ => .pf) (le : code ≤ 4) :
    ChanId.ofCode? code = some c := by
  subst named
  match code with
  | 0 | 1 | 2 | 3 | 4 => rfl
  | _ + 5 => omega

theorem State.captureOpen_eq (s : State) (c : ChanId) :
    s.captureOpen c = ((c.head?.bind fun h => (s.capture h).window).isSome || (decide (c = .pf) && s.pull.capture.isSome)) := by
  cases c <;> simp [State.captureOpen, ChanId.head?]

/-- The channels of a link that are enabled once one channel is replaced. -/
theorem State.linkEnabled_setChan_eq (s : State) (c : ChanId) (x : Channel) (l : Link) :
    (s.setChan c x).linkEnabled l = (linkChans l).any (fun k => if k = c then x.enabled else (s.chan k).enabled) := by
  unfold State.linkEnabled
  congr 1
  funext k
  rw [State.chan_setChan, apply_ite Channel.enabled]

section Chcfg

variable {p : PortId} {code flags d sh metric t n timeout : Nat} {o : Int} {s : State} {c : ChanId}

theorem doChcfg_of_no_channel (unknown : ChanId.ofCode? code = none) :
    doChcfg p code flags d sh o metric t n timeout s = s.refuse p .range := by
  rw [doChcfg, unknown]

theorem doChcfg_of_bad_values (channel : ChanId.ofCode? code = some c)
    (bad : chcfgOk c flags d sh metric t n timeout = false) :
    doChcfg p code flags d sh o metric t n timeout s = s.refuse p .range := by
  simp only [doChcfg, channel]
  rw [if_pos (by simp [bad])]

theorem doChcfg_of_open (channel : ChanId.ofCode? code = some c) (ok : chcfgOk c flags d sh metric t n timeout = true)
    (busy : s.captureOpen c = true) : doChcfg p code flags d sh o metric t n timeout s = s.refuse p .busy := by
  simp only [doChcfg, channel]
  rw [if_neg (by simp [ok]), if_pos busy]

theorem doChcfg_configures (channel : ChanId.ofCode? code = some c) (ok : chcfgOk c flags d sh metric t n timeout = true)
    (free : s.captureOpen c = false) :
    doChcfg p code flags d sh o metric t n timeout s =
      ((s.setChan c (configured c flags d sh o metric t n)).setLink c.link
        ((s.link c.link).configure (roundTimeout timeout)
          ((linkChans c.link).any fun k => if k = c then flags == 1 else (s.chan k).enabled))).respond p .ok 0
        (be16 (roundTimeout timeout) ++ [if (s.link c.link).present then 0 else 1]) := by
  have absent : flag8 (!(s.link c.link).present) = if (s.link c.link).present then 0 else 1 := by
    cases (s.link c.link).present <;> rfl
  simp only [doChcfg, channel]
  rw [if_neg (by simp [ok]), if_neg (by simp [free]), State.linkEnabled_setChan_eq, ← absent]
  rfl

end Chcfg

/-- Settles O30, by the branches of CHCFG in the order of R81. -/
theorem chcfgConfigures : Obligations.ChcfgConfigures := by
  intro code flags d sh o metric t n timeout s hears i
  refine ⟨fun big => .of_carryOut rfl rfl hears rfl (doChcfg_of_no_channel (ChanId.ofCode?_eq_none big)),
    fun c named le => ?_⟩
  intro ok isOpen stored running
  have channel : ChanId.ofCode? code.toNat = some c := ChanId.ofCode?_eq_some named le
  have accepted : chcfgOk c flags.toNat d.toNat sh.toNat metric.toNat t.toNat n.toNat timeout.toNat = true ↔ ok :=
    chcfgOk_iff ..
  have opened : (s.taking i).captureOpen c = isOpen := by
    rw [State.captureOpen_eq, State.taking_capture, State.taking_pull]
  refine ⟨fun bad => ?_, fun good busy => ?_, fun good free => ?_⟩
  · exact .of_carryOut rfl rfl hears rfl (doChcfg_of_bad_values channel (Bool.eq_false_iff.mpr (mt accepted.mp bad)))
  · exact .of_carryOut rfl rfl hears rfl (doChcfg_of_open channel (accepted.mpr good) (opened.trans busy))
  · refine .of_carryOut rfl rfl hears rfl ?_
    rw [doChcfg_configures channel (accepted.mpr good) (opened.trans free), State.taking_link, State.taking_chan]
    rfl

/-! ### The path of a sample (R74, R83, R85, R87, R88, R91, R96) -/

@[simp] theorem State.setChan_setChan (s : State) (c : ChanId) (x y : Channel) :
    (s.setChan c x).setChan c y = s.setChan c y := by
  cases c <;> rfl

theorem State.sample_of_partial {s : State} {c : ChanId} (enabled : (s.chan c).enabled = true)
    (more : (s.chan c).count + 1 < (s.chan c).d) (x : Int) :
    s.sample c x = s.setChan c { s.chan c with sum := (s.chan c).sum + x, count := (s.chan c).count + 1 } := by
  have group : (s.chan c).sample x
      = ({ s.chan c with sum := (s.chan c).sum + x, count := (s.chan c).count + 1 }, none) := if_pos more
  simp only [State.sample, group]
  rw [if_neg (by simp [enabled])]

/-- The sample that completes a group hands its value on. -/
theorem State.sample_of_complete {s : State} {c : ChanId} (enabled : (s.chan c).enabled = true)
    (full : (s.chan c).d ≤ (s.chan c).count + 1) (x : Int) :
    s.sample c x = (s.setChan c (s.chan c).empty).deliverValue c (s.chan c) ((s.chan c).value ((s.chan c).sum + x)) := by
  have group : (s.chan c).sample x = ((s.chan c).empty, some ((s.chan c).value ((s.chan c).sum + x))) :=
    if_neg (Nat.not_lt.mpr full)
  simp only [State.sample, group]
  rw [if_neg (by simp [enabled])]

theorem ChanId.isUS_eq {c : ChanId} {h : Head} (head : c.head? = some h) : c.isUS = decide (c = usChan h) := by
  cases c <;> cases h <;> simp_all [ChanId.head?, ChanId.isUS, usChan]

/-- A channel of a head that is not its US channel is its Z channel. -/
theorem ChanId.eq_zChan_iff {c : ChanId} {h : Head} (head : c.head? = some h) : c = zChan h ↔ c.isUS = false := by
  cases c <;> cases h <;> simp_all [ChanId.head?, ChanId.isUS, zChan]

section Touch

variable {s : State} {c : ChanId} {h : Head} {before : Channel} {v : Int}

theorem Channel.touches_iff : before.touches v = true ↔ before.runAfter v = before.n ∧ before.run < before.n := by
  simp [Channel.touches]

/-- A touch that finds the latch clear sets it, stops a RUNNING feed and is reported (R88). -/
theorem State.detectTouch_of_touch (touch : before.touches v = true) (clear : (s.feed h).latch = false) :
    s.detectTouch c h before v =
      (((s.setChan c { s.chan c with run := before.runAfter v }).setFeed h
        { (s.feed h).stop .touch with latch := true }).post h.port
          (.touch h c.isUS v (decide ((s.feed h).state = .running)))).post .cc
            (.touch h c.isUS v (decide ((s.feed h).state = .running))) := by
  rw [State.detectTouch, if_pos (by simp [touch, clear])]
  rfl

theorem State.detectTouch_of_untouched (untouched : before.touches v = false ∨ (s.feed h).latch = true) :
    s.detectTouch c h before v = s.setChan c { s.chan c with run := before.runAfter v } := by
  rw [State.detectTouch, if_neg (by rcases untouched with e | e <;> simp [e])]

/-- A value of a head channel reaches the touch detector and the window capture of its head. -/
theorem State.deliverValue_of_head (head : c.head? = some h) :
    s.deliverValue c before v =
      (s.detectTouch c h before v).setCapture h ((s.capture h).takeValue (decide (c = usChan h)) v) := by
  simp only [State.deliverValue, head, State.capture, State.detectTouch_bond, ChanId.isUS_eq head]

end Touch

theorem Feed.touched_eq (f : Feed) :
    { f.stop .touch with latch := true } = { f with
      latch := true
      state := if decide (f.state = .running) then .stopped .touch else f.state
      fill := f.fill && !decide (f.state = .running) } := by
  unfold Feed.stop
  by_cases running : f.state = .running <;> simp [running]

theorem Window.takeZ_eq (w : Window) (v : Int) :
    w.takeZ v =
      if w.z.n < 4095 then { w with z := { w.z with n := w.z.n + 1 }, z0 := some (w.z0.getD v),
                                    zmin := some (min (w.zmin.getD v) v) }
      else { w with z := { w.z with long := true } } := by
  unfold Window.takeZ CapturePart.take Config.captureCap
  split <;> rfl

theorem Window.takeUS_eq (w : Window) (v : Int) :
    w.takeUS v =
      if w.us.n < 4095 then { w with us := { w.us with n := w.us.n + 1 }, usSum := w.usSum + v.natAbs }
      else { w with us := { w.us with long := true } } := by
  unfold Window.takeUS CapturePart.take Config.captureCap
  split <;> rfl

/-- A value of a head channel into the window capture of its head (R91, R113). -/
theorem BondCapture.takeValue_eq (b : BondCapture) {c : ChanId} {h : Head} (head : c.head? = some h) (v : Int) :
    b.takeValue (decide (c = usChan h)) v = { b with window := b.window.map fun w =>
      if w.binding = .silenced then w else if c = zChan h then w.takeZ v else w.takeUS v } := by
  have kind : decide (c = usChan h) = true ↔ ¬c = zChan h := by
    rw [← ChanId.isUS_eq head, ChanId.eq_zChan_iff head, Bool.not_eq_false]
  unfold BondCapture.takeValue
  congr 2
  funext w
  by_cases silenced : w.binding = .silenced
  · rw [if_pos silenced, if_neg (by simp [Window.live, silenced])]
  · rw [if_neg silenced, if_pos (by simp [Window.live, silenced])]
    by_cases z : c = zChan h
    · rw [if_pos z, if_neg (fun us => kind.mp us z)]
    · rw [if_neg z, if_pos (kind.mpr z)]

/-- Settles O32: a sample that completes a group goes on, over the touch detector, to the capture. -/
theorem samplesBecomeValues : Obligations.SamplesBecomeValues := by
  intro c x s ch v run
  refine ⟨fun off => State.sample_of_disabled off x, fun on more => State.sample_of_partial on more x,
    fun on full pf => ?_, fun h head on full => ?_⟩
  · subst pf
    rw [State.sample_of_complete on full]
    rfl
  intro w' s1 stopped notice
  have run_eq : ch.runAfter v = run := rfl
  have taken : (s.capture h).takeValue (decide (c = usChan h)) v = { s.capture h with window := w' } := by
    simp only [BondCapture.takeValue_eq _ head, Window.takeZ_eq, Window.takeUS_eq]
    rfl
  have delivered : s.sample c x
      = ((s.setChan c ch.empty).detectTouch c h ch v).setCapture h { s.capture h with window := w' } := by
    rw [State.sample_of_complete on full, State.deliverValue_of_head head]
    exact congrArg _ taken
  rw [delivered]
  refine ⟨fun rises below clear => ?_, fun quiet => ?_⟩
  · have touch : ch.touches v = true := Channel.touches_iff.mpr ⟨rises, below⟩
    rw [State.detectTouch_of_touch (s := s.setChan c ch.empty) touch clear, Feed.touched_eq, State.chan_setChan_self,
      State.setChan_setChan, ChanId.isUS_eq head]
    rfl
  · have untouched : ch.touches v = false ∨ (s.feed h).latch = true := by
      rw [Bool.eq_false_iff, ne_eq, Channel.touches_iff, run_eq, Decidable.not_and_iff_not_or_not, Nat.not_lt, or_assoc]
      exact quiet
    rw [State.detectTouch_of_untouched (s := s.setChan c ch.empty) untouched, State.chan_setChan_self,
      State.setChan_setChan]
    rfl

end Sys2Proof.Machine
end

section
/-! The judgment of a window: its metrics, and the rows of the verdict table. -/

namespace Sys2Proof.Machine

/-! ### The metrics (R92) -/

theorem Window.DEF_of_no_values {w : Window} (empty : w.z.n = 0) (wz : Nat) : w.DEF wz = 0 := if_pos empty

theorem Window.USI_of_no_values {w : Window} (empty : w.us.n = 0) (wu : Nat) : w.USI wu = 0 := if_pos empty

/-- DEF is the drop from the first Z value to the least one, in steps of `2 ^ wz` (R92). -/
theorem Window.DEF_eq {w : Window} {wz q : Nat} {a b : Int} (valued : w.z.n ≠ 0) (first : w.z0 = some a)
    (least : w.zmin = some b) (low : (q : Int) * 2 ^ wz ≤ a - b) (high : a - b < (q + 1 : Int) * 2 ^ wz) :
    w.DEF wz = min 65535 q := by
  have drop : (0 : Int) ≤ a - b :=
    Int.le_trans (Int.mul_nonneg (Int.natCast_nonneg q) (Int.le_of_lt (Int.pow_pos (by decide)))) low
  have steps : (a - b).toNat / 2 ^ wz = q := by
    obtain ⟨d, same⟩ := Int.eq_ofNat_of_zero_le drop
    rw [same] at low high ⊢
    exact Nat.div_eq_of_lt_le (by exact_mod_cast low) (by exact_mod_cast high)
  rw [Window.DEF, if_neg valued, first, least]
  exact congrArg saturateMetric steps

/-- USI is the sum of the US values' magnitudes in steps of `2 ^ wu` (R92). -/
theorem Window.USI_eq {w : Window} {wu q : Nat} (valued : w.us.n ≠ 0) (low : q * 2 ^ wu ≤ w.usSum)
    (high : w.usSum < (q + 1) * 2 ^ wu) : w.USI wu = min 65535 q := by
  rw [Window.USI, if_neg valued, Nat.div_eq_of_lt_le low high]
  rfl

/-! ### The verdict table (R93, R94) -/

theorem inMargin_iff (v lo hi m : Nat) : inMargin v lo hi m = true ↔ (v : Int) < lo + m ∨ (v : Int) > hi - m := by
  simp only [inMargin, Bool.or_eq_true, decide_eq_true_eq]
  omega

/-- The rows of the verdict table that compare the metrics with the limits (rows 3 to 8 of R93). -/
def PhaseLimits.judge (f : PhaseLimits) (DUR DEF USI : Nat) : Verdict × Cause :=
  if DUR < f.durMin ∨ f.durMax < DUR then (.fail, .time)
  else if DEF < f.defLo then (.fail, .nonstick)
  else if f.defHi < DEF then (.fail, .overcrush)
  else if USI < f.usiLo ∨ f.usiHi < USI then (.fail, .usAbnormal)
  else if inMargin DEF f.defLo f.defHi f.mDef || inMargin USI f.usiLo f.usiHi f.mUsi then (.marginal, .none)
  else (.good, .none)

section Rows

variable {w : Window} {l : LimitSet} {ph : Phase} {DEF USI : Nat}

theorem judgeWindow_disabled (off : w.z.enabledAtOpen = false ∨ w.us.enabledAtOpen = false) :
    judgeWindow w l ph DEF USI = (.unjudged, .disabled) :=
  if_pos (by simpa using off)

theorem judgeWindow_of_enabled (z : w.z.enabledAtOpen = true) (us : w.us.enabledAtOpen = true) :
    judgeWindow w l ph DEF USI =
      if w.z.absence || w.z.framing || w.us.absence || w.us.framing then (.unjudged, .link)
      else if w.z.n = 0 ∨ w.us.n = 0 then (.unjudged, .noData)
      else if !l.loaded then (.fail, .noLimits)
      else (l.phase ph).judge w.z.n DEF USI :=
  if_neg (by simp [z, us])

end Rows

/-- A metric near an end of its band (row 7 of R93). -/
theorem PhaseLimits.near_iff {f : PhaseLimits} {DEF USI : Nat} :
    (inMargin DEF f.defLo f.defHi f.mDef || inMargin USI f.usiLo f.usiHi f.mUsi) = true ↔
      (DEF : Int) < f.defLo + f.mDef ∨ (DEF : Int) > f.defHi - f.mDef
        ∨ (USI : Int) < f.usiLo + f.mUsi ∨ (USI : Int) > f.usiHi - f.mUsi := by
  rw [Bool.or_eq_true, inMargin_iff, inMargin_iff, or_assoc]

/-- Settles O35, row by row of the verdict table. -/
theorem windowsAreJudged : Obligations.WindowsAreJudged := by
  intro w l ph wz wu f r DEF USI result
  have phase : l.phase ph = f := by cases ph <;> rfl
  have table : result = judgeWindow w l ph DEF USI := rfl
  refine ⟨rfl, (Window.DEF_of_no_values · wz), (Window.USI_of_no_values · wu),
    fun a b q valued first least low high => Window.DEF_eq valued first least low high,
    fun q valued low high => Window.USI_eq valued low high, fun off => judgeWindow_disabled off, fun zOn usOn => ?_⟩
  rw [table, judgeWindow_of_enabled zOn usOn, phase]
  refine ⟨fun marked => if_pos marked, fun clean empty => ?_, fun clean z us => ?_⟩
  · rw [if_neg (Bool.eq_false_iff.mp clean), if_pos empty]
  rw [if_neg (Bool.eq_false_iff.mp clean), if_neg (not_or.mpr ⟨z, us⟩)]
  refine ⟨fun missing => if_pos (by simp [missing]), fun loaded => ?_⟩
  rw [if_neg (by simp [loaded])]
  refine ⟨fun out => if_pos out, fun durLow durHigh => ?_⟩
  rw [PhaseLimits.judge, if_neg (not_or.mpr ⟨Nat.not_lt.mpr durLow, Nat.not_lt.mpr durHigh⟩)]
  refine ⟨fun nonstick => if_pos nonstick, fun defLow above => ?_, fun defLow defHigh => ?_⟩
  · rw [if_neg (Nat.not_lt.mpr defLow), if_pos above]
  rw [if_neg (Nat.not_lt.mpr defLow), if_neg (Nat.not_lt.mpr defHigh)]
  refine ⟨fun abnormal => if_pos abnormal, fun usiLow usiHigh => ?_⟩
  rw [if_neg (not_or.mpr ⟨Nat.not_lt.mpr usiLow, Nat.not_lt.mpr usiHigh⟩)]
  exact ⟨fun near => if_pos (PhaseLimits.near_iff.mpr near), fun far => if_neg (far ∘ PhaseLimits.near_iff.mp)⟩

end Sys2Proof.Machine
end

section
/-! The law of the Bond Captures (R100, R101): what the list of a head holds after each command and event, what each of them
does to the Bond Captures, and so every step. -/

namespace Sys2Proof.Machine

/-! ### The ticket lists (R41) -/

/-- The tickets in the list of a head. -/
def Issuer.tickets (i : Issuer) (h : Head) : List Ticket := (i.feeds.get h).tickets

/-- The lists with that of one head replaced. -/
def replaceList (lists : Head → List Ticket) (h : Head) (ts : List Ticket) : Head → List Ticket :=
  fun k => if k = h then ts else lists k

theorem replaceList_self (lists : Head → List Ticket) (h : Head) : replaceList lists h (lists h) = lists := by
  funext k
  unfold replaceList
  split
  · next own => rw [own]
  · rfl

theorem State.feed_tickets (s : State) (h : Head) : (s.feed h).tickets = s.issuer.tickets h := rfl

@[simp] theorem State.trigger_tickets (s : State) : s.trigger.issuer.tickets = s.issuer.tickets := by
  funext h
  rw [← State.feed_tickets, State.feed_trigger, Feed.trigger]
  split <;> rfl

@[simp] theorem State.clearCursors_tickets (s : State) : s.clearCursors.issuer.tickets = s.issuer.tickets := by
  funext h
  rw [← State.feed_tickets, State.feed_clearCursors]
  rfl

theorem State.setFeed_tickets (s : State) (h : Head) (f : Feed) :
    (s.setFeed h f).issuer.tickets = replaceList s.issuer.tickets h f.tickets := by
  funext k
  rw [← State.feed_tickets, State.feed_setFeed, replaceList, apply_ite Feed.tickets]
  rfl

/-- A feed replaced by one with the same list. -/
theorem State.setFeed_tickets_same {s : State} {h : Head} {f : Feed} (same : f.tickets = (s.feed h).tickets) :
    (s.setFeed h f).issuer.tickets = s.issuer.tickets := by
  rw [State.setFeed_tickets, same, State.feed_tickets, replaceList_self]

@[simp] theorem State.buildMap_tickets (s : State) (slot : Nat) (prog : Program) (r : StripRecord) :
    (s.buildMap slot prog r).issuer.tickets = s.issuer.tickets := by
  simp [State.buildMap]

@[simp] theorem State.waitFor_tickets (s : State) (p : PortId) (h : Head) (r : Request) :
    (s.waitFor p h r).issuer.tickets = s.issuer.tickets :=
  State.setFeed_tickets_same rfl

theorem Feed.stop_tickets (f : Feed) (why : StopReason) : (f.stop why).tickets = f.tickets := by
  unfold Feed.stop
  split <;> rfl

@[simp] theorem State.reportVerdict_tickets (s : State) (h : Head) (t : Ticket) (ph : Phase) (r : BondResult) (x y : Bool) :
    (s.reportVerdict h t ph r x y).issuer.tickets = s.issuer.tickets := by
  funext k
  rw [← State.feed_tickets, State.feed_reportVerdict]
  split
  · next own => rw [Feed.stop_tickets, own.1]; rfl
  · rfl

@[simp] theorem State.sample_tickets (s : State) (c : ChanId) (x : Int) :
    (s.sample c x).issuer.tickets = s.issuer.tickets := by
  funext h
  rcases s.feed_sample c x h with same | ⟨-, touched⟩
  · exact congrArg Feed.tickets same
  · exact (congrArg Feed.tickets touched).trans (Feed.stop_tickets _ _)

theorem State.cancelTicket_tickets (s : State) (h : Head) (why : StrayReason) (t : Ticket) :
    (s.cancelTicket h why t).issuer.tickets = replaceList s.issuer.tickets h ((s.issuer.tickets h).erase t) := by
  rw [State.cancelTicket_eq rfl, State.checkClamp_issuer, State.checkComplete_issuer]
  exact s.setFeed_tickets h ((s.feed h).remove t)

/-! #### Commands -/

/-- The commands that may change a Bond Capture, or take a ticket out of a list. -/
def changesBonds : Cmd → Bool
  | .arm | .disarm | .cancel | .freset | .restart => true
  | _ => false

theorem withHead_tickets (p : PortId) {f : Head → State → State} {s : State}
    (same : ∀ h, (f h s).issuer.tickets = s.issuer.tickets) : (withHead p f s).issuer.tickets = s.issuer.tickets := by
  unfold withHead
  split
  · exact same _
  · rfl

section Commands

variable (p : PortId) (h : Head) (s : State)

theorem doRun_tickets (count traversal fixedUnit order delivery depth : Nat) :
    (doRun p count traversal fixedUnit order delivery depth h s).issuer.tickets = s.issuer.tickets := by
  unfold doRun
  split
  · simp
  split
  · simp
  · dsimp only
    rw [State.respond_issuer, State.trigger_tickets, State.askEnable_issuer]
    exact State.setFeed_tickets_same rfl

theorem doHalt_tickets : (doHalt p h s).issuer.tickets = s.issuer.tickets := by
  rw [doHalt, State.respond_issuer]
  exact State.setFeed_tickets_same rfl

theorem doNext_tickets : (doNext p h s).issuer.tickets = s.issuer.tickets := by
  unfold doNext
  (repeat' split) <;> simp

theorem doClaim_tickets (u w : Nat) : (doClaim p u w h s).issuer.tickets = s.issuer.tickets := by
  unfold doClaim
  split <;> simp

theorem doClrstop_tickets : (doClrstop p h s).issuer.tickets = s.issuer.tickets := by
  unfold doClrstop
  dsimp only
  split
  · simp
  · rw [State.respond_issuer]
    exact State.setFeed_tickets_same rfl

theorem doPsel_tickets (v : Nat) : (doPsel p v s).issuer.tickets = s.issuer.tickets := by
  unfold doPsel
  dsimp only
  (repeat' split) <;> simp

theorem doZone_tickets (mask : Vector Byte 8) : (doZone p mask s).issuer.tickets = s.issuer.tickets := by
  unfold doZone
  dsimp only
  (repeat' split) <;> simp

theorem doSkipu_tickets (u : Nat) : (doSkipu p u s).issuer.tickets = s.issuer.tickets := by
  unfold doSkipu
  dsimp only
  (repeat' split) <;> simp

theorem doGuard_tickets (g : Nat) : (doGuard p g s).issuer.tickets = s.issuer.tickets := by
  unfold doGuard
  split
  · simp
  · rw [State.respond_issuer, State.trigger_tickets]
    rfl

theorem doZrel_tickets : (doZrel p s).issuer.tickets = s.issuer.tickets := by
  unfold doZrel
  split
  · simp
  · funext h
    rw [State.respond_issuer, ← State.feed_tickets, State.feed_releaseZone]
    rfl

theorem doCldone_tickets : (doCldone p s).issuer.tickets = s.issuer.tickets := by
  simp [doCldone]

end Commands

/-- Every other command leaves the lists. -/
theorem carryOut_tickets {c : Cmd} (other : changesBonds c = false) (p : PortId) (bs : List Byte) (s : State) :
    (carryOut c p bs s).issuer.tickets = s.issuer.tickets := by
  cases hc : changesIssuer c with
  | false => rw [carryOut_issuer hc]
  | true =>
    cases c <;> simp only [changesIssuer, changesBonds, reduceCtorEq] at hc other
    case run => exact withHead_tickets p fun h => doRun_tickets p h s ..
    case halt => exact withHead_tickets p fun h => doHalt_tickets p h s
    case next => exact withHead_tickets p fun h => doNext_tickets p h s
    case claim => exact withHead_tickets p fun h => doClaim_tickets p h s ..
    case clrstop => exact withHead_tickets p fun h => doClrstop_tickets p h s
    case psel => exact doPsel_tickets p s _
    case zone => exact doZone_tickets p s _
    case skipu => exact doSkipu_tickets p s _
    case guard => exact doGuard_tickets p s _
    case zrel => exact doZrel_tickets p s
    case cldone => exact doCldone_tickets p s

theorem carryOut_bond {c : Cmd} (other : changesBonds c = false) (p : PortId) (bs : List Byte) (s : State) :
    (carryOut c p bs s).bond = s.bond := by
  cases c <;> simp_all [changesBonds, carryOut, withHead_bond]

/-! #### Serves: a list only grows -/

theorem State.issueTo_tickets_subset (s : State) (h : Head) (t : Ticket) (k : Head) :
    s.issuer.tickets k ⊆ (s.issueTo h t).issuer.tickets k := by
  rw [← State.feed_tickets, ← State.feed_tickets, State.feed_issueTo]
  split
  · next own =>
    have counted : (((s.feed h).append t).countIssue ⟨t.unit, t.wire⟩).tickets = (s.feed h).tickets ++ [t] := by
      unfold Feed.countIssue
      dsimp only
      split <;> rfl
    rw [counted, own]
    exact List.subset_append_left _ _
  · exact List.Subset.refl _

theorem State.grantTicket_tickets_subset (s : State) (h : Head) (t : Ticket) (k : Head) :
    s.issuer.tickets k ⊆ (s.grantTicket h t).issuer.tickets k := by
  rw [← State.feed_tickets, ← State.feed_tickets, State.feed_grantTicket]
  split
  · next own => exact own ▸ List.subset_append_left _ _
  · exact List.Subset.refl _

theorem serveNext_tickets_subset (h : Head) (s : State) (k : Head) :
    s.issuer.tickets k ⊆ (serveNext h s).issuer.tickets k := by
  unfold serveNext
  split
  · simp
  · split
    · dsimp only
      rw [State.loadResponse_issuer, State.postRunEnd_issuer]
      exact s.issueTo_tickets_subset h _ k
    · simp
    · simp

theorem serveClaim_tickets_subset (h : Head) (u w : Nat) (s : State) (k : Head) :
    s.issuer.tickets k ⊆ (serveClaim h u w s).issuer.tickets k := by
  unfold serveClaim
  split
  · simp
  · rw [State.loadResponse_issuer]
    exact s.grantTicket_tickets_subset h _ k

theorem serveFill_tickets_subset (h : Head) (s : State) (k : Head) :
    s.issuer.tickets k ⊆ (serveFill h s).issuer.tickets k := by
  unfold serveFill
  split
  · dsimp only
    rw [State.postRunEnd_issuer, State.post_issuer]
    exact s.issueTo_tickets_subset h _ k
  · have withdrawn : (s.setFeed h { s.feed h with fill := false }).issuer.tickets = s.issuer.tickets :=
      State.setFeed_tickets_same rfl
    exact withdrawn ▸ List.Subset.refl _

theorem doArbiterServe_tickets_subset (s : State) (k : Head) : s.issuer.tickets k ⊆ (doArbiterServe s).issuer.tickets k := by
  have dropped (h : Head) : (s.dropRequest h).issuer.tickets = s.issuer.tickets := State.setFeed_tickets_same rfl
  unfold doArbiterServe
  split
  · exact List.Subset.refl _
  · next h _ =>
    split
    · exact dropped h ▸ serveNext_tickets_subset h _ k
    · exact dropped h ▸ serveClaim_tickets_subset h _ _ _ k
    · exact List.Subset.refl _

theorem doFillServe_tickets_subset (s : State) (k : Head) : s.issuer.tickets k ⊆ (doFillServe s).issuer.tickets k := by
  unfold doFillServe
  split
  · exact List.Subset.refl _
  · split
    · exact List.Subset.refl _
    · exact serveFill_tickets_subset _ s k

/-! ### The law of one Bond Capture -/

section Law

variable {c : BondCapture} {ts us : List Ticket}

theorem BondCapture.law_mono (grows : ts ⊆ us) (law : c.law ts) : c.law us := by
  obtain ⟨win, armed, bound, agree⟩ := law
  exact ⟨win, fun a ha => grows (armed a ha), fun w t ph hw hb => grows (bound w t ph hw hb), agree⟩

/-- A change within the window capture that leaves its binding. -/
theorem BondCapture.law_mapWindow (law : c.law ts) {f : Window → Window} (same : ∀ w, (f w).binding = w.binding) :
    BondCapture.law { c with window := c.window.map f } ts := by
  obtain ⟨win, armed, bound, agree⟩ := law
  refine ⟨fun present => win (by simpa using present), armed, fun w t ph hw hb => ?_, fun w a hw ha => ?_⟩
  all_goals obtain ⟨v, hv, rfl⟩ := Option.map_eq_some_iff.mp hw
  · exact bound v t ph hv ((same v).symm.trans hb)
  · exact (same v).trans (agree v a hv ha)

/-- No window capture is present: the armed ticket is all that the law reads. -/
theorem BondCapture.law_of_no_window (closed : c.window = none) (armed : ∀ a, c.armed = some a → a.ticket ∈ ts) :
    c.law ts := by
  refine ⟨fun present => ?_, armed, fun w _ _ hw => ?_, fun w _ hw => ?_⟩
  · simp [closed] at present
  all_goals exact nomatch closed.symm.trans hw

end Law

/-! ### A ticket taken out of the list (R101, R111, R112) -/

/-- The binding of a window capture once a ticket is cut off. -/
def Binding.cut (t : Ticket) (why : StrayReason) : Binding → Binding
  | .bound t' ph => if t' = t then .stray why t.number ph else .bound t' ph
  | b => b

theorem Binding.cut_eq_bound_iff {t t' : Ticket} {why : StrayReason} {b : Binding} {ph : Phase} :
    b.cut t why = .bound t' ph ↔ b = .bound t' ph ∧ t' ≠ t := by
  cases b with
  | bound u q =>
    unfold Binding.cut
    split <;> grind
  | stray | silenced => simp [Binding.cut]

theorem BondCapture.cut_window (c : BondCapture) (t : Ticket) (why : StrayReason) :
    (c.cut t why).window = c.window.map fun w => { w with binding := w.binding.cut t why } := by
  refine congrArg (fun f => c.window.map f) (funext fun w => ?_)
  obtain ⟨binding, _, _, _, _, _⟩ := w
  cases binding with
  | bound u q => exact (apply_ite (fun b => Window.mk b _ _ _ _ _) _ _ _).symm
  | stray | silenced => rfl

theorem BondCapture.cut_armed_eq_some_iff {c : BondCapture} {t : Ticket} {why : StrayReason} {a : Armed} :
    (c.cut t why).armed = some a ↔ c.armed = some a ∧ a.ticket ≠ t := by
  simp [BondCapture.cut, Option.filter_eq_some_iff]

theorem BondCapture.law_cut {c : BondCapture} {ts : List Ticket} (law : c.law ts) (t : Ticket) (why : StrayReason) :
    (c.cut t why).law (ts.erase t) := by
  obtain ⟨win, armed, bound, agree⟩ := law
  simp only [BondCapture.law, BondCapture.cut_window, BondCapture.cut_armed_eq_some_iff, Option.isSome_map,
    Option.map_eq_some_iff]
  refine ⟨win, ?_, ?_, ?_⟩
  · rintro a ⟨ha, other⟩
    exact (List.mem_erase_of_ne other).mpr (armed a ha)
  · rintro _ t' ph ⟨w, hw, rfl⟩ hb
    obtain ⟨hb, other⟩ := Binding.cut_eq_bound_iff.mp hb
    exact (List.mem_erase_of_ne other).mpr (bound w t' ph hw hb)
  · rintro _ a ⟨w, hw, rfl⟩ ⟨ha, other⟩
    exact Binding.cut_eq_bound_iff.mpr ⟨agree w a hw ha, other⟩

/-! ### The law of both Bond Captures -/

theorem State.bondLaw_of_bond {s t : State} (bond : t.bond = s.bond)
    (grows : ∀ h, s.issuer.tickets h ⊆ t.issuer.tickets h) (law : s.bondLaw) : t.bondLaw := by
  unfold State.bondLaw State.capture
  rw [bond]
  exact fun h => BondCapture.law_mono (grows h) (law h)

theorem State.bondLaw_congr {s t : State} (bond : t.bond = s.bond) (tickets : t.issuer.tickets = s.issuer.tickets)
    (law : s.bondLaw) : t.bondLaw :=
  State.bondLaw_of_bond bond (fun _ => tickets ▸ List.Subset.refl _) law

theorem State.bondLaw_of_issuer {s t : State} (bond : t.bond = s.bond) (issuer : t.issuer = s.issuer)
    (law : s.bondLaw) : t.bondLaw :=
  State.bondLaw_congr bond (by rw [issuer]) law

theorem State.bondLaw_respond {s : State} (law : s.bondLaw) {p : PortId} {r : CmdResult} {d : Nat} {data : List Byte} :
    (s.respond p r d data).bondLaw :=
  State.bondLaw_of_issuer (State.respond_bond ..) (State.respond_issuer ..) law

theorem State.bondLaw_trigger {s : State} (law : s.bondLaw) : s.trigger.bondLaw :=
  State.bondLaw_congr (State.trigger_bond s) s.trigger_tickets law

/-- Only one head's Bond Capture and list change. -/
theorem State.bondLaw_update {s t : State} (law : s.bondLaw) {h : Head} {c : BondCapture} {ts : List Ticket}
    (bond : t.bond = s.bond.set h c) (tickets : t.issuer.tickets = replaceList s.issuer.tickets h ts)
    (own : c.law ts) : t.bondLaw := by
  intro k
  rw [State.capture, bond, PerHead.get_set, State.feed_tickets, tickets, replaceList]
  split
  · exact own
  · exact law k

theorem State.bondLaw_setCapture {s : State} (law : s.bondLaw) {h : Head} {c : BondCapture}
    (own : c.law (s.issuer.tickets h)) : (s.setCapture h c).bondLaw :=
  State.bondLaw_update law rfl (replaceList_self ..).symm own

/-! #### Commands -/

theorem doArm_bondLaw {s : State} (law : s.bondLaw) {p : PortId} {n : Nat} {h : Head} : (doArm p n h s).bondLaw := by
  unfold doArm
  split
  · exact State.bondLaw_respond law
  next t found =>
  split
  · exact State.bondLaw_respond law
  next closed =>
  split
  · exact State.bondLaw_respond law
  · refine State.bondLaw_respond (State.bondLaw_setCapture law ?_)
    refine BondCapture.law_of_no_window (by simpa using closed) ?_
    rintro _ ⟨⟩
    exact List.mem_of_find?_eq_some found

theorem doDisarm_bondLaw {s : State} (law : s.bondLaw) {p : PortId} {h : Head} : (doDisarm p h s).bondLaw := by
  unfold doDisarm
  split
  · exact State.bondLaw_respond law
  · next closed =>
    exact State.bondLaw_respond (State.bondLaw_setCapture law
      (BondCapture.law_of_no_window (by simpa using closed) (by simp)))

theorem State.bondLaw_cancelTicket {s : State} (law : s.bondLaw) (h : Head) (why : StrayReason) (t : Ticket) :
    (s.cancelTicket h why t).bondLaw := by
  refine State.bondLaw_update law ?_ (s.cancelTicket_tickets h why t) (BondCapture.law_cut (law h) t why)
  rw [State.cancelTicket_eq rfl, State.checkClamp_bond, State.checkComplete_bond]

theorem doCancel_bondLaw {s : State} (law : s.bondLaw) {p : PortId} {n : Nat} {h : Head} :
    (doCancel p n h s).bondLaw := by
  unfold doCancel
  split
  · exact State.bondLaw_respond law
  · exact State.bondLaw_respond (State.bondLaw_trigger (State.bondLaw_cancelTicket law h .cancelled _))

theorem State.bondLaw_cancelAll {s : State} (law : s.bondLaw) (h : Head) (why : StrayReason) (ts : List Ticket) :
    (ts.foldl (fun s t => s.cancelTicket h why t) s).bondLaw := by
  induction ts generalizing s with
  | nil => exact law
  | cons t ts ih => exact ih (State.bondLaw_cancelTicket law h why t)

theorem doFreset_bondLaw {s : State} (law : s.bondLaw) {p : PortId} {h : Head} : (doFreset p h s).bondLaw := by
  have cancelled := State.bondLaw_cancelAll law h .freset (s.feed h).tickets
  have off := State.bondLaw_congr (State.setFeed_bond _ h _) (State.setFeed_tickets_same
    (f := { (State.feed _ h).turnOff with cursor := none }) rfl) cancelled
  unfold doFreset
  dsimp only
  split
  · exact State.bondLaw_respond off
  · exact State.bondLaw_respond (State.bondLaw_trigger off)

/-- RESTART disarms, and silences an open window, which then has no binding (R113). -/
theorem BondCapture.law_restart {c : BondCapture} {ts : List Ticket} (law : c.law ts) : c.restart.law [] := by
  obtain ⟨win, -⟩ := law
  refine ⟨fun present => win (by simpa [BondCapture.restart] using present), nofun, fun w t ph hw hb => ?_,
    fun w a _ ha => nomatch ha⟩
  obtain ⟨v, -, rfl⟩ := Option.map_eq_some_iff.mp hw
  exact nomatch hb

theorem doRestart_bondLaw {s : State} (law : s.bondLaw) {p : PortId} : (doRestart p s).bondLaw := by
  have discarded : s.discardWork.bondLaw := by
    intro h
    have restarted : s.discardWork.capture h = (s.capture h).restart := by
      have kept : s.emptyCaptures.discardMap.bond = s.bond := by simp
      cases h <;> simp only [State.capture, State.discardWork, PerHead.get, kept]
    rw [restarted, State.feed_discardWork]
    exact BondCapture.law_restart (law h)
  refine State.bondLaw_respond (State.bondLaw_of_issuer (State.addReason_bond ..) (State.addReason_issuer ..) ?_)
  exact discarded

theorem withHead_bondLaw {s : State} (law : s.bondLaw) {p : PortId} {f : Head → State → State}
    (keeps : ∀ h, (f h s).bondLaw) : (withHead p f s).bondLaw := by
  unfold withHead
  split
  · exact keeps _
  · exact law

theorem carryOut_bondLaw {s : State} (law : s.bondLaw) (c : Cmd) (p : PortId) (bs : List Byte) :
    (carryOut c p bs s).bondLaw := by
  cases hc : changesBonds c with
  | false => exact State.bondLaw_congr (carryOut_bond hc p bs s) (carryOut_tickets hc p bs s) law
  | true =>
    cases c <;> simp only [changesBonds, reduceCtorEq] at hc
    case arm => exact withHead_bondLaw law fun _ => doArm_bondLaw law
    case disarm => exact withHead_bondLaw law fun _ => doDisarm_bondLaw law
    case cancel => exact withHead_bondLaw law fun _ => doCancel_bondLaw law
    case freset => exact withHead_bondLaw law fun _ => doFreset_bondLaw law
    case restart => exact doRestart_bondLaw law

/-! #### Windows -/

/-- A capture opens BOUND exactly to the ticket that stays armed (R104). -/
theorem openBinding_eq_bound_iff {armed : Option Armed} {clamp : Clamp} {t : Ticket} {ph : Phase} :
    openBinding armed clamp = .bound t ph ↔ armed.filter (fun a => !a.barred clamp) = some ⟨t, ph⟩ := by
  cases armed with
  | none => simp [openBinding]
  | some a =>
    obtain ⟨t', ph'⟩ := a
    cases barred : Armed.barred ⟨t', ph'⟩ clamp <;> simp [openBinding, Option.filter, barred]

theorem State.bondLaw_openWindow {s : State} (law : s.bondLaw) (h : Head) : (s.openWindow h).bondLaw := by
  obtain ⟨-, listed, -⟩ := law h
  have armed {a : Armed} (stays : (s.capture h).armed.filter (fun a => !a.barred s.tracker.clamp) = some a) :
      a.ticket ∈ (s.feed h).tickets :=
    listed a (Option.filter_eq_some_iff.mp stays).1
  unfold State.openWindow
  refine State.bondLaw_of_issuer (State.emptyHead_bond ..) (State.emptyHead_issuer ..) (State.bondLaw_setCapture law ?_)
  refine ⟨fun _ => rfl, fun a stays => armed stays, ?_, ?_⟩
  · rintro _ t ph ⟨⟩ bound
    exact armed (openBinding_eq_bound_iff.mp bound)
  · rintro _ a ⟨⟩ stays
    exact openBinding_eq_bound_iff.mpr stays

theorem State.closeBound_tickets (s : State) (h : Head) (w : Window) (t : Ticket) (ph : Phase) :
    (s.closeBound h w t ph).issuer.tickets = replaceList s.issuer.tickets h
      (match ph with | .ball => s.issuer.tickets h | .stitch => (s.issuer.tickets h).erase t) := by
  cases ph with
  | ball => simp [State.closeBound, State.commit, replaceList_self]
  | stitch =>
    refine Eq.trans ?_ (s.setFeed_tickets h ((s.feed h).remove t))
    simp [State.closeBound, State.commit, State.feed]

theorem State.closeBound_bond (s : State) (h : Head) (w : Window) (t : Ticket) (ph : Phase) :
    ∃ last, (s.closeBound h w t ph).bond = s.bond.set h { s.capture h with last := last } := by
  refine ⟨some ⟨t.number, ph,
    (w.judge (s.limitSet t.limitSet) ph (s.chan (zChan h)).metric (s.chan (usChan h)).metric).verdict⟩, ?_⟩
  cases ph <;> simp [State.closeBound, State.capture]

/-- With no window capture and no armed ticket left, any list will do. -/
theorem State.bondLaw_closeBound {s : State} (law : s.bondLaw) {h : Head} (closed : (s.capture h).window = none)
    (unarmed : (s.capture h).armed = none) (w : Window) (t : Ticket) (ph : Phase) : (s.closeBound h w t ph).bondLaw := by
  obtain ⟨last, bond⟩ := s.closeBound_bond h w t ph
  exact State.bondLaw_update law bond (s.closeBound_tickets h w t ph)
    (BondCapture.law_of_no_window closed fun _ armed => nomatch unarmed.symm.trans armed)

theorem State.bondLaw_closeWindow {s : State} (law : s.bondLaw) (h : Head) : (s.closeWindow h).bondLaw := by
  obtain ⟨-, listed, -⟩ := law h
  have ended : ((s.setCapture h { s.capture h with win := false, window := none, armed := none }).emptyHead h).bondLaw :=
    State.bondLaw_of_issuer (State.emptyHead_bond ..) (State.emptyHead_issuer ..)
      (State.bondLaw_setCapture law (BondCapture.law_of_no_window rfl fun _ armed => nomatch armed))
  unfold State.closeWindow
  dsimp only
  split
  · next closed => exact State.bondLaw_setCapture law (BondCapture.law_of_no_window closed listed)
  · have gone : ((s.setCapture h { s.capture h with win := false, window := none, armed := none }).emptyHead h).capture h
        = { s.capture h with win := false, window := none, armed := none } := by
      rw [State.capture, State.emptyHead_bond]
      exact State.capture_setCapture_self ..
    split
    · exact State.bondLaw_closeBound ended (by rw [gone]) (by rw [gone]) _ _ _
    · exact State.bondLaw_of_issuer (State.post_bond ..) (State.post_issuer ..) ended
    · exact ended

/-! #### Values and marks -/

theorem Window.binding_takeZ (w : Window) (v : Int) : (w.takeZ v).binding = w.binding := by
  unfold Window.takeZ
  split <;> rfl

theorem Window.binding_takeUS (w : Window) (v : Int) : (w.takeUS v).binding = w.binding := by
  unfold Window.takeUS
  split <;> rfl

theorem BondCapture.law_takeValue {c : BondCapture} {ts : List Ticket} (law : c.law ts) (us : Bool) (v : Int) :
    (c.takeValue us v).law ts := by
  refine BondCapture.law_mapWindow law fun w => ?_
  split
  · split
    · exact w.binding_takeUS v
    · exact w.binding_takeZ v
  · rfl

theorem State.bondLaw_sample {s : State} (law : s.bondLaw) (c : ChanId) (x : Int) : (s.sample c x).bondLaw := by
  have bond : (s.sample c x).bond = s.bond
      ∨ ∃ h us v, (s.sample c x).bond = s.bond.set h ((s.capture h).takeValue us v) := by
    unfold State.sample
    dsimp only
    split
    · exact .inl rfl
    split
    · exact .inl rfl
    · unfold State.deliverValue
      split
      · exact .inr ⟨_, _, _, by simp [State.capture]; rfl⟩
      · exact .inl rfl
  rcases bond with same | ⟨h, us, v, taken⟩
  · exact State.bondLaw_congr same (s.sample_tickets c x) law
  · exact State.bondLaw_update law taken ((s.sample_tickets c x).trans (replaceList_self ..).symm)
      (BondCapture.law_takeValue (law h) us v)

theorem doDataWord_bondLaw {s : State} (law : s.bondLaw) (l : Link) (w : W32) : (doDataWord l w s).bondLaw := by
  have samples (xs : List (ChanId × Int)) {u : State} (law : u.bondLaw) :
      (xs.foldl (fun s x => s.sample x.1 x.2) u).bondLaw := by
    induction xs generalizing u with
    | nil => exact law
    | cons x xs ih => exact ih (State.bondLaw_sample law x.1 x.2)
  exact samples _ (State.bondLaw_of_issuer (State.goodWord_bond ..) (State.goodWord_issuer ..) law)

theorem State.bondLaw_markLink {s : State} (law : s.bondLaw) (l : Link) {window : Window → Window}
    (same : ∀ w, (window w).binding = w.binding) (pull : PullCapture → PullCapture) :
    (s.markLink l window pull).bondLaw := by
  have live (w : Window) : (if w.live then window w else w).binding = w.binding := by
    split
    · exact same w
    · rfl
  cases l with
  | slA => exact State.bondLaw_setCapture law (BondCapture.law_mapWindow (law .a) live)
  | slB => exact State.bondLaw_setCapture law (BondCapture.law_mapWindow (law .b) live)
  | slP => exact law

theorem State.released_bondLaw (lines : LineLevels) (pending : List Instr) : (State.released lines pending).bondLaw := by
  intro h
  obtain ⟨win, captured⟩ := State.released_capture lines pending h
  rw [captured]
  exact BondCapture.law_of_no_window rfl fun _ armed => nomatch armed

/-- Each taking of a command and each event keeps the law of the Bond Captures. -/
theorem State.keeps_bondLaw : Keeps State.bondLaw where
  port _ _ _ _ law := law
  screen _ _ law := law
  pending _ _ law := law
  command c p bs _ law := carryOut_bondLaw law c p bs
  group _ _ _ _ law := State.bondLaw_of_issuer (State.takePwireGroup_bond ..) (State.takePwireGroup_issuer ..) law
  arbiter s law := State.bondLaw_of_bond (doArbiterServe_bond s) (doArbiterServe_tickets_subset s) law
  fill s law := State.bondLaw_of_bond (doFillServe_bond s) (doFillServe_tickets_subset s) law
  opens h _ _ law := State.bondLaw_openWindow law h
  closes h _ _ law := State.bondLaw_closeWindow law h
  holdOn _ law := State.bondLaw_of_issuer (State.addReason_bond ..) (State.addReason_issuer ..) law
  holdOff _ law := State.bondLaw_of_issuer (State.removeReasons_bond ..) (State.removeReasons_issuer ..) law
  rst := State.released_bondLaw
  address _ _ _ law := State.bondLaw_of_issuer (State.goodWord_bond ..) (State.goodWord_issuer ..) law
  data l w _ law := doDataWord_bondLaw law l w
  framing l _ law := State.bondLaw_markLink (window := Window.markFraming) law l (fun _ => rfl) _
  expiry l _ _ law := State.bondLaw_of_issuer (State.postLink_bond ..) (State.postLink_issuer ..)
    (State.bondLaw_markLink (window := Window.markAbsence) law l (fun _ => rfl) _)
  rest _ _ law := law

/-- Settles O56: each taking and each event keeps the law of the Bond Captures. -/
theorem stepKeepsBondLaw : Obligations.StepKeepsBondLaw :=
  State.keeps_bondLaw.step

end Sys2Proof.Machine
end

section
/-! ARM and DISARM at their taking (R101 to R103). -/

namespace Sys2Proof.Machine

/-! ### ARM -/

/-- The phase of a ticket by the state code of its slot (R101). -/
theorem State.phaseOf_eq (s : State) (t : Ticket) :
    s.phaseOf t = if (s.map.bind fun m => m.slot? t.unit t.wire).any (fun sl => sl.phase.code == 2) then .stitch
      else .ball := by
  unfold State.phaseOf
  rcases s.map.bind fun m => m.slot? t.unit t.wire with _ | ⟨phase, selected⟩
  · rfl
  · cases phase <;> rfl

theorem State.taking_phaseOf (s : State) (i : Instr) : (s.taking i).phaseOf = s.phaseOf := by
  funext t
  rw [State.phaseOf, State.phaseOf, State.taking_map]

section Arm

variable {p : PortId} {n : Nat} {h : Head} {s : State}

theorem doArm_of_unknown (unknown : (s.feed h).find n = none) : doArm p n h s = s.respond p .notFound 0 [] := by
  rw [doArm, unknown]
  rfl

variable {t : Ticket} (found : (s.feed h).find n = some t)
include found

theorem doArm_of_window (present : (s.capture h).window ≠ none) : doArm p n h s = s.respond p .busy 0 [] := by
  simp only [doArm, found]
  exact if_pos (Option.isSome_iff_ne_none.mpr present)

theorem doArm_of_clamp (closed : (s.capture h).window = none) (ball : s.phaseOf t = .ball)
    (clamped : s.tracker.clamp ≠ .none) : doArm p n h s = s.respond p .state 5 [] := by
  simp only [doArm, found]
  rw [if_neg (by simp [closed]), if_pos ⟨ball, clamped⟩]
  rfl

theorem doArm_arms (closed : (s.capture h).window = none) (free : s.phaseOf t = .stitch ∨ s.tracker.clamp = .none) :
    doArm p n h s
      = (s.setCapture h { s.capture h with armed := some ⟨t, s.phaseOf t⟩ }).respond p .ok (s.phaseOf t).code
          [flag8 (s.capture h).armed.isSome, b8 (armedNumber (s.capture h).armed), b8 t.number] := by
  simp only [doArm, found]
  rw [if_neg (by simp [closed]), if_neg]
  rintro ⟨ball, clamped⟩
  rcases free with stitch | none
  · exact nomatch ball.symm.trans stitch
  · exact clamped none

end Arm

/-- Settles O36, by the checks of ARM in the order of R102. -/
theorem armArmsATicket : Obligations.ArmArmsATicket := by
  intro h n s hears
  have accepts : h.port.accepts .arm = true := by cases h <;> rfl
  refine ⟨fun unknown => ?_, fun t found => ?_⟩
  · refine .of_head rfl rfl hears accepts (doArm_of_unknown ?_)
    simpa [Feed.find] using unknown
  intro first before
  have found' : ((s.taking (.arm h.port n)).feed h).find n.toNat = some t := by rwa [State.taking_feed]
  have phase : (s.taking (.arm h.port n)).phaseOf t = if first then .stitch else .ball := by
    rw [State.taking_phaseOf]
    exact s.phaseOf_eq t
  refine ⟨fun present => ?_, fun closed ball clamped => ?_, fun closed free => ?_⟩
  · exact .of_head rfl rfl hears accepts (doArm_of_window found' (by rwa [State.taking_capture]))
  · exact .of_head rfl rfl hears accepts (doArm_of_clamp found' (by rwa [State.taking_capture])
      (by rw [phase, ball]; rfl) (by rwa [State.taking_tracker]))
  · refine .of_head rfl rfl hears accepts ?_
    rw [doArm_arms found' (by rwa [State.taking_capture])
      (by simpa [phase] using free), phase, State.taking_capture, flag8_eq, apply_ite Phase.code]
    rfl

/-! ### DISARM -/

@[simp] theorem State.setCapture_capture (s : State) (h : Head) : s.setCapture h (s.capture h) = s := by cases h <;> rfl

theorem b8_phase_code (ph : Phase) : b8 ph.code = (match ph with | .ball => 0 | .stitch => 1 : Byte) := by
  cases ph <;> rfl

section Disarm

variable {p : PortId} {h : Head} {s : State}

theorem doDisarm_of_window (present : (s.capture h).window ≠ none) : doDisarm p h s = s.respond p .busy 0 [] :=
  if_pos (Option.isSome_iff_ne_none.mpr present)

theorem doDisarm_disarms (closed : (s.capture h).window = none) :
    doDisarm p h s = (s.setCapture h { s.capture h with armed := none }).respond p .ok 0
      [flag8 (s.capture h).armed.isSome, b8 (armedNumber (s.capture h).armed),
        b8 (((s.capture h).armed.map fun a => a.phase.code).getD 0)] :=
  if_neg (by simp [closed])

end Disarm

/-- Settles O37, by the window capture and the armed ticket. -/
theorem disarmClearsTheArmedTicket : Obligations.DisarmClearsTheArmedTicket := by
  intro h s hears
  have accepts : h.port.accepts .disarm = true := by cases h <;> rfl
  refine ⟨fun present => ?_, fun closed a armed => ?_, fun closed unarmed => ?_⟩
  · exact .of_head rfl rfl hears accepts (doDisarm_of_window (by rwa [State.taking_capture]))
  · refine .of_head (g := doDisarm h.port) rfl rfl hears accepts ?_
    rw [doDisarm_disarms (by rwa [State.taking_capture]), State.taking_capture, armed]
    simp only [Option.map_some, Option.getD_some, b8_phase_code]
    rfl
  · refine .of_head (g := doDisarm h.port) (u := id) rfl rfl hears accepts ?_
    have same : { s.capture h with armed := none } = s.capture h := by rw [← unarmed]
    rw [doDisarm_disarms (by rwa [State.taking_capture]), State.taking_capture, same, unarmed]
    rw [← State.taking_capture s (.disarm h.port), State.setCapture_capture]
    rfl

end Sys2Proof.Machine
end

section
/-! The window of a head: the rise and the fall of WIN (R86, R90, R101, R104 to R111). -/

namespace Sys2Proof.Machine

/-! ### The end of an event of a window -/

/-- A field shows a Bond Capture by its last result only (R177). -/
theorem State.fieldText_of_last {s t : State} (tracker : s.tracker = t.tracker) (map : s.map = t.map)
    (programs : s.programs = t.programs) (issuer : s.issuer = t.issuer) (pull : s.pull = t.pull)
    (last : ∀ h, (s.capture h).last = (t.capture h).last) (k : FieldKind) : s.fieldText k = t.fieldText k := by
  have program : s.program? = t.program? := by funext i; simp only [State.program?, programs]
  cases k <;> simp only [State.fieldText, State.feed, tracker, map, issuer, pull, last, program]

/-- Nothing is drawn where an event changes ports, channels and captures only, and no last result. -/
theorem State.finish_of_last {old new : State} (tracker : old.tracker = new.tracker) (map : old.map = new.map)
    (programs : old.programs = new.programs) (issuer : old.issuer = new.issuer) (pull : old.pull = new.pull)
    (hold : old.hold = new.hold) (screen : old.screen = new.screen)
    (last : ∀ h, (old.capture h).last = (new.capture h).last) : old.finish new = new :=
  State.finish_self (by rw [hold]) (State.fieldText_of_last tracker map programs issuer pull last) (by rw [screen])

theorem State.last_setCapture {s : State} {h : Head} {c : BondCapture} (same : c.last = (s.capture h).last) (k : Head) :
    (s.capture k).last = ((s.setCapture h c).capture k).last := by
  rw [State.capture_setCapture]
  split
  · next own => rw [own, same]
  · rfl

theorem State.finish_setCapture {s : State} {h : Head} {c : BondCapture} (same : c.last = (s.capture h).last) :
    s.finish (s.setCapture h c) = s.setCapture h c :=
  State.finish_of_last rfl rfl rfl rfl rfl rfl rfl (State.last_setCapture same)

/-! ### The rise of WIN -/

/-- A Bond Capture of a head replaced, and the accumulators of both its channels emptied (R86). -/
def State.windowEvent (s : State) (h : Head) (c : BondCapture) : State :=
  ((s.setCapture h c).setChan (zChan h) { s.chan (zChan h) with sum := 0, count := 0 }).setChan (usChan h)
    { s.chan (usChan h) with sum := 0, count := 0 }

theorem State.emptyHead_setCapture (s : State) (h : Head) (c : BondCapture) :
    (s.setCapture h c).emptyHead h = s.windowEvent h c := by
  cases h <;> rfl

theorem State.finish_windowEvent {s : State} {h : Head} {c : BondCapture} (same : c.last = (s.capture h).last) :
    s.finish (s.windowEvent h c) = s.windowEvent h c :=
  State.finish_of_last rfl rfl rfl rfl rfl rfl rfl (State.last_setCapture same)

theorem exec_windowOpen_of_high {s : State} {h : Head} (high : (s.capture h).win = true) :
    exec (.windowOpen h) s = .next s := by
  show Host.Outcome.next (s.finish (if _ then _ else _)) = _
  rw [if_pos high, State.finish_same]

theorem exec_windowOpen {s : State} {h : Head} (low : (s.capture h).win = false) :
    exec (.windowOpen h) s = .next (s.windowEvent h { s.capture h with
      win := true
      window := some (.opening (openBinding (s.capture h).armed s.tracker.clamp) (s.chan (zChan h)).enabled
        (s.chan (usChan h)).enabled (!(s.link (headLink h)).present))
      armed := (s.capture h).armed.filter (fun a => !a.barred s.tracker.clamp) }) := by
  show Host.Outcome.next (s.finish (if _ then _ else _)) = _
  rw [if_neg (by simp [low]), State.openWindow, State.emptyHead_setCapture]
  exact congrArg Host.Outcome.next (State.finish_windowEvent rfl)

/-- A ball is barred by a clamp that is not NONE (R104). -/
theorem Armed.barred_ball {t : Ticket} {clamp : Clamp} (clamped : clamp ≠ .none) :
    Armed.barred ⟨t, .ball⟩ clamp = true := by
  simp [Armed.barred, clamped]

theorem Armed.not_barred {t : Ticket} {ph : Phase} {clamp : Clamp} (free : ph = .stitch ∨ clamp = .none) :
    Armed.barred ⟨t, ph⟩ clamp = false := by
  rcases free with rfl | rfl <;> simp [Armed.barred]

/-- Settles O38, by the armed ticket and the clamp state. -/
theorem windowsOpen : Obligations.WindowsOpen := by
  intro h s c absent part opened
  have link : headLink h = (match h with | .a => .slA | .b => .slB : Link) := by cases h <;> rfl
  have opens {b : Binding} {armed : Option Armed} (low : c.win = false)
      (binds : openBinding c.armed s.tracker.clamp = b)
      (stays : c.armed.filter (fun a => !a.barred s.tracker.clamp) = armed) :
      exec (.windowOpen h) s = .next (opened b armed) := by
    rw [exec_windowOpen low, binds, stays, link]
    rfl
  refine ⟨exec_windowOpen_of_high, fun low unarmed => ?_, fun t low ball clamped => ?_, fun t ph low armed free => ?_⟩
  · exact opens low (by rw [unarmed]; rfl) (by rw [unarmed]; rfl)
  · have barred := Armed.barred_ball (t := t) clamped
    exact opens low (by rw [ball, openBinding, if_pos barred]) (by simp [ball, Option.filter, barred])
  · have passes := Armed.not_barred (t := t) free
    exact opens low (by simp [armed, openBinding, passes]) (by simp [armed, Option.filter, passes])

/-! ### The fall of WIN -/

theorem exec_windowClose_of_low {s : State} {h : Head} (low : (s.capture h).win = false) :
    exec (.windowClose h) s = .next s := by
  show Host.Outcome.next (s.finish (if _ then _ else _)) = _
  rw [if_neg (by simp [low]), State.finish_same]

theorem exec_windowClose {s : State} {h : Head} (high : (s.capture h).win = true) :
    exec (.windowClose h) s = .next (s.finish (s.closeWindow h)) := by
  show Host.Outcome.next (s.finish (if _ then _ else _)) = _
  rw [if_pos high]

/-- A fall with no window capture closes nothing (R105). -/
theorem State.closeWindow_of_no_window {s : State} {h : Head} (closed : (s.capture h).window = none) :
    s.closeWindow h = s.setCapture h { s.capture h with win := false } := by
  unfold State.closeWindow
  dsimp only
  split
  · rfl
  · next w present => exact nomatch closed.symm.trans present

theorem exec_windowClose_of_no_window {s : State} {h : Head} (high : (s.capture h).win = true)
    (closed : (s.capture h).window = none) :
    exec (.windowClose h) s = .next (s.setCapture h { s.capture h with win := false }) := by
  rw [exec_windowClose high, State.closeWindow_of_no_window closed]
  exact congrArg Host.Outcome.next (State.finish_setCapture rfl)

/-- The head's Bond Capture at the end of a window, with this last result (R101, R106). -/
def State.windowEnd (s : State) (h : Head) (last : Option LastResult) : State :=
  s.windowEvent h { s.capture h with win := false, window := none, armed := none, last := last }

theorem State.closeWindow_of_window {s : State} {h : Head} {w : Window} (present : (s.capture h).window = some w) :
    s.closeWindow h =
      match w.binding with
      | .bound t ph => (s.windowEnd h (s.capture h).last).closeBound h w t ph
      | .stray why n ph => (s.windowEnd h (s.capture h).last).post h.port (.stray why n ph w.z.n)
      | .silenced => s.windowEnd h (s.capture h).last := by
  simp only [State.closeWindow, present, State.emptyHead_setCapture]
  rfl

theorem State.reportVerdict_eq (s : State) (h : Head) (t : Ticket) (ph : Phase) (r : BondResult) (x y : Bool) :
    s.reportVerdict h t ph r x y =
      if r.verdict = .fail ∧ (s.feed h).state = .running then
        ((s.setFeed h { s.feed h with state := .stopped .fail, fill := false }).post h.port
          (.verdict t.number ph r x y true)).post h.port (.feedStop t.number ph r.cause)
      else s.post h.port (.verdict t.number ph r x y false) := by
  unfold State.reportVerdict
  split
  · next stops => rw [Feed.stop, if_pos stops.2]
  · rfl

/-- The result of a window of a head (R92, R95), by the limits and the metrics as they stand. -/
def State.judged (s : State) (h : Head) (w : Window) (t : Ticket) (ph : Phase) : BondResult :=
  w.judge (s.limitSet t.limitSet) ph (s.chan (zChan h)).metric (s.chan (usChan h)).metric

theorem State.closeBound_ball (s : State) (h : Head) (last : Option LastResult) (w : Window) (t : Ticket) :
    (s.windowEnd h last).closeBound h w t .ball =
      (({ s.windowEnd h (some ⟨t.number, .ball, (s.judged h w t .ball).verdict⟩) with
        map := s.map.map (fun m => m.request t.unit t.wire (requestBall h t.number (s.judged h w t .ball)))
      } : State).reportVerdict h t .ball (s.judged h w t .ball) w.z.long w.us.long).checkComplete.checkClamp := by
  cases h <;> rfl

theorem State.closeBound_stitch (s : State) (h : Head) (last : Option LastResult) (w : Window) (t : Ticket) :
    (s.windowEnd h last).closeBound h w t .stitch =
      (({ s.windowEnd h (some ⟨t.number, .stitch, (s.judged h w t .stitch).verdict⟩) with
        map := s.map.map (fun m => m.request t.unit t.wire (requestStitch h t.number t.tier (s.judged h w t .stitch)))
        issuer := { s.issuer with
          feeds := s.issuer.feeds.set h { s.feed h with tickets := (s.feed h).tickets.erase t } }
        pull := s.pull.bonded t h
      } : State).reportVerdict h t .stitch (s.judged h w t .stitch) w.z.long w.us.long).checkComplete.checkClamp.trigger := by
  cases h <;> rfl

/-- Settles O39, by the binding of the window capture. -/
theorem windowsClose : Obligations.WindowsClose := by
  intro h s c ended report
  have end_eq (last : Option LastResult) : s.windowEnd h last = ended last := rfl
  refine ⟨exec_windowClose_of_low, fun w t high present bound => ?ball, fun w t high present bound => ?stitch,
    fun w why n ph high present stray => ?stray, fun w high present silenced => ?silenced,
    exec_windowClose_of_no_window⟩
  case ball =>
    rw [exec_windowClose high, State.closeWindow_of_window present, bound]
    dsimp only
    rw [State.closeBound_ball, State.reportVerdict_eq]
    rfl
  case stitch =>
    rw [exec_windowClose high, State.closeWindow_of_window present, bound]
    dsimp only
    rw [State.closeBound_stitch, State.reportVerdict_eq]
    cases h <;> rfl
  case stray =>
    rw [exec_windowClose high, State.closeWindow_of_window present, stray]
    exact congrArg Host.Outcome.next (State.finish_of_last rfl rfl rfl rfl rfl rfl rfl (State.last_setCapture rfl))
  case silenced =>
    rw [exec_windowClose high, State.closeWindow_of_window present, silenced]
    exact congrArg Host.Outcome.next (State.finish_windowEvent rfl)

end Sys2Proof.Machine
end

section
/-! The release of RST where the levels of the input lines decide it (R115, R166, R183, R184). -/

namespace Sys2Proof.Machine

/-! ### The screen (R183) -/

/-- An active PNLRDY counts as a rise: the transfer of row 0 starts, its select byte in the shift byte. -/
theorem Screen.released_ready (b : Banner) :
    ∃ first rest, Screen.released true b = { Screen.reset with
      pnlrdy := true
      dirty := allDirty.set 0 false
      tx := some { row := 0, rest := rest }
      holding := first
      shift := some 0x80 } := by
  have lowest : ({ Screen.reset with pnlrdy := true, dirty := allDirty } : Screen).lowestDirty = some 0 :=
    Screen.lowestDirty_eq _ 0 rfl fun r below => absurd below (Fin.not_lt_zero r)
  have starts : Screen.released true b = ({ Screen.reset with pnlrdy := true, dirty := allDirty } : Screen).startRow b 0 := by
    rw [Screen.released, if_pos rfl, Screen.ready, Screen.kick, lowest]
    rfl
  rw [starts, Screen.startRow_empty _ _ _ rfl rfl]
  exact ⟨_, _, rfl⟩

theorem Screen.released_blank (pnlrdy : Bool) (b : Banner) :
    (Screen.released pnlrdy b).pnlrdy = pnlrdy ∧ (Screen.released pnlrdy b).regions = Screen.reset.regions
      ∧ (Screen.released pnlrdy b).cells = Screen.reset.cells := by
  cases pnlrdy with
  | false => exact ⟨rfl, rfl, rfl⟩
  | true =>
    obtain ⟨first, rest, e⟩ := Screen.released_ready b
    rw [e]
    exact ⟨rfl, rfl, rfl⟩

theorem Screen.cell_of_blank {c : Screen} (blank : c.cells = Screen.reset.cells) (row col : Nat) :
    c.cell row col = Cell.blank := by
  unfold Screen.cell
  rw [blank]
  simp only [Screen.reset, Vector.getElem?_replicate]
  split
  · rw [Option.bind_some, Vector.getElem?_replicate]
    split <;> rfl
  · rfl

/-- Settles O4: the screen by the level of PNLRDY, every other value at once. -/
theorem rstReadsTheLines : Obligations.RstReadsTheLines := by
  intro s lines
  obtain ⟨pnlrdy, regions, cells⟩ := Screen.released_blank lines.pnlrdy (Hold.released lines.holdin).banner
  refine ⟨State.released lines s.pending, rfl, rfl, rfl, rfl, rfl, rfl, rfl, rfl, rfl, rfl, rfl, fun h high => ?_,
    pnlrdy, fun i => ?_, Screen.cell_of_blank cells, fun off => ?_, fun ready => ?_⟩
  · obtain ⟨win, captured⟩ := State.released_capture lines s.pending h
    exact exec_windowClose_of_no_window high (by rw [captured]; rfl)
  · show (Screen.released _ _).regions[i] = none
    rw [regions]
    exact Vector.getElem_replicate ..
  · have rest : (State.released lines s.pending).screen = Screen.reset := by
      show Screen.released lines.pnlrdy _ = _
      rw [off]
      rfl
    rw [rest]
    exact ⟨rfl, rfl, rfl, rfl⟩
  · obtain ⟨first, rest, starts⟩ := Screen.released_ready (Hold.released lines.holdin).banner
    have screen : (State.released lines s.pending).screen = _ := (congrArg (Screen.released · _) ready).trans starts
    rw [screen]
    exact ⟨rfl, rfl, rfl⟩

end Sys2Proof.Machine
end

section
/-! The magazine commands at their taking: MAGLD, MAGUL and MGRD (R121 to R124), and STOW (R131, R132). -/

namespace Sys2Proof.Machine

/-! ### MAGLD -/

theorem occupancyOk_iff (count : Nat) (occupied : List Byte) :
    occupancyOk count occupied = true ↔
      1 ≤ count ∧ count ≤ 50 ∧ ∀ k, k < 56 → flagOf occupied k = true → k < count := by
  simp only [occupancyOk, Bool.and_eq_true, decide_eq_true_eq, List.all_eq_true, List.mem_range, Bool.or_eq_true,
    Bool.not_eq_true', ← Bool.not_eq_true, ← Decidable.imp_iff_not_or, and_assoc]

theorem Tracker.load_input {t : Tracker} {side : Nat} (h : side = 0) (id : W16) (count : Nat) (occupied : List Byte) :
    t.load side id count occupied
      = { t with input := some ⟨id, (List.range count).map (fun k => if flagOf occupied k then .full else .empty)⟩ } :=
  if_pos h

theorem Tracker.load_output {t : Tracker} {side : Nat} (h : side = 1) (id : W16) (count : Nat) (occupied : List Byte) :
    t.load side id count occupied
      = { t with output := some ⟨id, (List.range count).map (fun k => if flagOf occupied k then .blocked else .empty)⟩ } :=
  if_neg (h ▸ Nat.one_ne_zero)

section Magld

variable {p : PortId} {side : Nat} {id : W16} {count : Nat} {occupied : List Byte} {s : State}

theorem doMagld_of_no_side (h : 1 < side) : doMagld p side id count occupied s = s.refuse p .range := if_pos h

theorem doMagld_of_present (h : side ≤ 1) (present : s.tracker.present side = true) :
    doMagld p side id count occupied s = s.refuseState p .magPresent := by
  rw [doMagld, if_neg (Nat.not_lt.mpr h), if_pos present]

theorem doMagld_of_bad_flags (h : side ≤ 1) (absent : s.tracker.present side = false)
    (bad : occupancyOk count occupied = false) : doMagld p side id count occupied s = s.refuse p .range := by
  rw [doMagld, if_neg (Nat.not_lt.mpr h), if_neg (Bool.eq_false_iff.mp absent), if_pos (by simp [bad])]

theorem doMagld_loads (h : side ≤ 1) (absent : s.tracker.present side = false) (ok : occupancyOk count occupied = true) :
    doMagld p side id count occupied s
      = { s with tracker := s.tracker.load side id count occupied }.respond p .ok 0
          [b8 ((List.range count).countP (flagOf occupied)),
            b8 (count - (List.range count).countP (flagOf occupied))] := by
  rw [doMagld, if_neg (Nat.not_lt.mpr h), if_neg (Bool.eq_false_iff.mp absent), if_neg (by simp [ok])]

end Magld

/-! ### MAGUL -/

theorem Tracker.input_eq_none {t : Tracker} {side : Nat} (h : side = 0) (absent : t.present side = false) :
    t.input = none := by
  simpa [Tracker.present, h] using absent

theorem Tracker.output_eq_none {t : Tracker} {side : Nat} (h : side = 1) (absent : t.present side = false) :
    t.output = none := by
  simpa [Tracker.present, h] using absent

section Magul

variable {p : PortId} {side : Nat} {s : State}

theorem doMagul_of_no_side (h : 1 < side) : doMagul p side s = s.refuse p .range := if_pos h

theorem doMagul_of_absent (h : side ≤ 1) (absent : s.tracker.present side = false) :
    doMagul p side s = s.refuseState p .noMag := by
  obtain input | output := Nat.le_one_iff_eq_zero_or_eq_one.mp h
  · simp [doMagul, input, Tracker.input_eq_none input absent]
  · simp [doMagul, output, Tracker.output_eq_none output absent]

theorem doMagul_input {t : InTable} (h : side = 0) (table : s.tracker.input = some t) :
    doMagul p side s = { s with tracker := { s.tracker with input := none } }.respond p .ok 0
      (be16 t.id.toNat ++ [b8 t.full, b8 t.fed]) := by
  simp [doMagul, h, table]

theorem doMagul_output {t : OutTable} (h : side = 1) (table : s.tracker.output = some t) :
    doMagul p side s
      = ({ s with tracker := { s.tracker with output := none } }.post .cc (.magOut t.id t.stowed)).respond p .ok 0
        (be16 t.id.toNat ++ [b8 t.stowed, b8 t.blocked, b8 t.free]) := by
  simp [doMagul, h, table]

end Magul

/-! ### MGRD -/

theorem doMgrd_of_no_side {p : PortId} {side : Nat} {s : State} (h : 2 < side) : doMgrd p side s = s.refuse p .range :=
  if_pos h

theorem doMgrd_reads {p : PortId} {side : Nat} {s : State} (h : side ≤ 2) :
    doMgrd p side s = s.respond p .ok 0 (s.tracker.readout side) := if_neg (Nat.not_lt.mpr h)

section Readout

variable {t : Tracker} {side : Nat}

theorem Tracker.readout_of_absent (h : side ≤ 1) (absent : t.present side = false) : t.readout side = [0, 0, 0, 0] := by
  obtain input | output := Nat.le_one_iff_eq_zero_or_eq_one.mp h
  · simp [Tracker.readout, input, Tracker.input_eq_none input absent]
  · simp [Tracker.readout, output, Tracker.output_eq_none output absent]

theorem Tracker.readout_input {tab : InTable} (h : side = 0) (table : t.input = some tab) :
    t.readout side = [1] ++ be16 tab.id.toNat ++ [b8 tab.slots.length] ++ tab.slots.flatMap InSlot.bytes := by
  simp [Tracker.readout, h, table]

theorem Tracker.readout_output {tab : OutTable} (h : side = 1) (table : t.output = some tab) :
    t.readout side = [1] ++ be16 tab.id.toNat ++ [b8 tab.slots.length] ++ tab.slots.flatMap OutSlot.bytes := by
  simp [Tracker.readout, h, table]

theorem Tracker.readout_positions (h : side = 2) :
    t.readout side = positionBytes t.feed ++ positionBytes t.zone ++ positionBytes t.pull := by
  simp [Tracker.readout, h]

end Readout

/-- Settles O40: MAGLD by its checks in the order of R121, MAGUL and MGRD by side and by the table there. -/
theorem magazineCommands : Obligations.MagazineCommands := by
  intro s present
  have absent {i : Instr} {side : Nat} (h : present side = false) : (s.taking i).tracker.present side = false := by
    rwa [State.taking_tracker]
  refine ⟨?_, fun side hears => ?_, ?_⟩
  · intro side id count occ hears i flagged ok number
    have okIff : occupancyOk count.toNat occ.toList = true ↔ ok := occupancyOk_iff ..
    refine ⟨fun big => ?_, fun le there => ?_, fun le free bad => ?_, fun input free fine => ?_, fun output free fine => ?_⟩
    · exact .of_carryOut rfl rfl hears rfl (doMagld_of_no_side big)
    · exact .of_refuseState (c := .magld) rfl rfl hears rfl (doMagld_of_present le (by rwa [State.taking_tracker]))
    · exact .of_carryOut rfl rfl hears rfl
        (doMagld_of_bad_flags le (absent free) (Bool.eq_false_iff.mpr (mt okIff.mp bad)))
    · refine .of_carryOut rfl rfl hears rfl
        ((doMagld_loads (by omega) (absent (by rwa [input])) (okIff.mpr fine)).trans ?_)
      rw [Tracker.load_input input]
    · refine .of_carryOut rfl rfl hears rfl
        ((doMagld_loads (by omega) (absent (by rwa [output])) (okIff.mpr fine)).trans ?_)
      rw [Tracker.load_output output]
  · refine ⟨fun big => ?_, fun le free => ?_, fun tab input table => ?_, fun tab output table => ?_⟩
    · exact .of_carryOut rfl rfl hears rfl (doMagul_of_no_side big)
    · exact .of_refuseState (c := .magul) rfl rfl hears rfl (doMagul_of_absent le (absent free))
    · exact .of_carryOut rfl rfl hears rfl (doMagul_input input (by rwa [State.taking_tracker]))
    · exact .of_carryOut rfl rfl hears rfl (doMagul_output output (by rwa [State.taking_tracker]))
  · intro p side ports hears entry
    have accepts : p.accepts .mgrd = true := by rcases ports with rfl | rfl <;> rfl
    have reads {data : List Byte} (le : side.toNat ≤ 2) (read : s.tracker.readout side.toNat = data) :
        Answers (.mgrd p side) s id .ok 0 data :=
      .of_carryOut rfl rfl hears accepts ((doMgrd_reads le).trans (by rw [State.taking_tracker, read]; rfl))
    have position : positionBytes = entry := by
      funext o
      rcases o with _ | ⟨serial, source, ⟨⟩, mask, sampled, outcomes, _ | ⟨⟨⟩, _, _, _⟩⟩ <;> rfl
    refine ⟨fun big => ?_, fun le free => ?_, fun tab input table => ?_, fun tab output table => ?_, fun both => ?_⟩
    · exact .of_carryOut rfl rfl hears accepts (doMgrd_of_no_side big)
    · exact reads (by omega) (Tracker.readout_of_absent le free)
    · exact reads (by omega) (Tracker.readout_input input table)
    · refine reads (by omega) ((Tracker.readout_output output table).trans ?_)
      congr 2
      funext x
      rcases x with _ | _ | ⟨_, _, _, _, _, ⟨⟩⟩ <;> rfl
    · exact reads (by omega) ((Tracker.readout_positions both).trans (by rw [position]))

/-! ### STOW -/

section Stow

variable {p : PortId} {slot : Nat} {s : State}

theorem doStow_of_no_strip (gone : s.tracker.pull = none) : doStow p slot s = s.refuseState p .noStrip := by
  rw [doStow, gone]

variable {r : StripRecord} (strip : s.tracker.pull = some r)
include strip

theorem doStow_of_no_table (absent : s.tracker.output = none) : doStow p slot s = s.refuseState p .noMag := by
  simp only [doStow, strip, absent]

variable {t : OutTable} (table : s.tracker.output = some t)
include table

theorem doStow_of_no_slot (beyond : t.slots.length ≤ slot) : doStow p slot s = s.refuse p .range := by
  simp only [doStow, strip, table, List.getElem?_eq_none beyond]

theorem doStow_of_taken {x : OutSlot} (there : t.slots[slot]? = some x) (taken : x ≠ .empty) :
    doStow p slot s = s.refuseState p .slot := by
  simp only [doStow, strip, table, there]
  exact if_pos taken

variable (empty : t.slots[slot]? = some .empty)
include empty

theorem doStow_of_open (opened : r.pullOpen = true) : doStow p slot s = s.respond p .busy 0 [b8 r.outstanding] := by
  simp [doStow, strip, table, empty, opened]

theorem doStow_stows (notOpen : r.pullOpen = false) :
    doStow p slot s = (s.stow r t slot).respond p .ok 0 (stowData r.stowed (t.free - 1)) := by
  simp [doStow, strip, table, empty, notOpen]

end Stow

theorem b8_pullOutcome_code (o : PullOutcome) :
    b8 o.code = (match o with | .none => 0 | .pass => 1 | .fail => 2 : Byte) := by
  cases o <;> rfl

/-- A slot that is stowed in is no longer EMPTY (R132). -/
theorem OutTable.free_set_stowed {t : OutTable} {slot : Nat} (empty : t.slots[slot]? = some .empty) (c : Stowed) :
    ({ t with slots := t.slots.set slot (.stowed c) } : OutTable).free = t.free - 1 := by
  obtain ⟨lt, at_⟩ := List.getElem?_eq_some_iff.mp empty
  simp [OutTable.free, List.countP_set lt, at_]

theorem StripRecord.pullOpen_iff {r : StripRecord} {k : PullStatus} (status : r.pull = some k) :
    r.pullOpen = true ↔ k.state = .opened := by
  simp [StripRecord.pullOpen, status]

/-- Settles O43, by the checks of STOW in the order of R131. -/
theorem stowFillsASlot : Obligations.StowFillsASlot := by
  intro slot s hears
  have tracker := State.taking_tracker s (.stow .mh slot)
  refine ⟨fun gone => ?_, fun r strip => ?_⟩
  · exact .of_refuseState (c := .stow) rfl rfl hears rfl (doStow_of_no_strip (by rwa [tracker]))
  rw [← tracker] at strip
  refine ⟨fun absent => ?_, fun t table => ?_⟩
  · exact .of_refuseState (c := .stow) rfl rfl hears rfl (doStow_of_no_table strip (by rwa [tracker]))
  rw [← tracker] at table
  refine ⟨fun beyond => ?_, fun x there taken => ?_, fun empty => ⟨fun k status opened => ?_, fun k status notOpen => ?_⟩⟩
  · exact .of_carryOut rfl rfl hears rfl (doStow_of_no_slot strip table beyond)
  · exact .of_refuseState (c := .stow) rfl rfl hears rfl (doStow_of_taken strip table there taken)
  · refine .of_carryOut (u := id) rfl rfl hears rfl
      ((doStow_of_open strip table empty ((StripRecord.pullOpen_iff status).mpr opened)).trans ?_)
    rw [StripRecord.outstanding, status]
    rfl
  · intro number outcome contents tab' free
    have closed : r.pullOpen = false := Bool.eq_false_iff.mpr (mt (StripRecord.pullOpen_iff status).mp notOpen)
    have stowed : r.stowed = contents := by
      rw [StripRecord.stowed, status]
      rfl
    have left : t.free - 1 = free := by rw [← OutTable.free_set_stowed empty contents]; rfl
    refine .of_carryOut rfl rfl hears rfl ((doStow_stows strip table empty closed).trans ?_)
    rw [stowed, left, State.stow, stowed, stowData, b8_pullOutcome_code]
    rfl

end Sys2Proof.Machine
end

section
/-! FEED and ZONE at their taking (R118, R125 to R127). -/

namespace Sys2Proof.Machine

/-! ### FEED -/

/-- The serials of R118, strip by strip and stowed slot by stowed slot. -/
theorem Tracker.mem_serials {t : Tracker} {serial : W32} :
    serial ∈ t.serials ↔
      (∃ r, (t.feed = some r ∨ t.zone = some r ∨ t.pull = some r) ∧ r.serial = serial)
        ∨ ∃ out c, t.output = some out ∧ OutSlot.stowed c ∈ out.slots ∧ c.serial = serial := by
  have stowed (x : OutSlot) : x.serial? = some serial ↔ ∃ c, x = .stowed c ∧ c.serial = serial := by
    cases x <;> simp [OutSlot.serial?]
  have slots (o : Option OutTable) : (∃ x ∈ (o.map (·.slots)).getD [], x.serial? = some serial) ↔
      ∃ out c, o = some out ∧ OutSlot.stowed c ∈ out.slots ∧ c.serial = serial := by
    cases o with
    | none => exact ⟨fun ⟨_, slot, _⟩ => (nomatch slot), fun ⟨_, _, table, _⟩ => (nomatch table)⟩
    | some out =>
      constructor
      · rintro ⟨x, slot, holds⟩
        obtain ⟨c, rfl, same⟩ := (stowed x).mp holds
        exact ⟨out, c, rfl, slot, same⟩
      · rintro ⟨_, c, ⟨⟩, slot, same⟩
        exact ⟨.stowed c, slot, (stowed _).mpr ⟨c, rfl, same⟩⟩
  rw [Tracker.serials_eq]
  simp only [List.mem_append, List.mem_map, Option.mem_toList, List.mem_filterMap, slots]
  grind

section Feed

variable {p : PortId} {slot : Nat} {serial : W32} {s : State}

theorem doFeed_of_no_table (absent : s.tracker.input = none) : doFeed p slot serial s = s.refuseState p .noMag := by
  rw [doFeed, absent]

variable {t : InTable} (table : s.tracker.input = some t)
include table

theorem doFeed_of_no_slot (beyond : t.slots.length ≤ slot) : doFeed p slot serial s = s.refuse p .range := by
  simp only [doFeed, table, List.getElem?_eq_none beyond]

theorem doFeed_of_not_full {x : InSlot} (there : t.slots[slot]? = some x) (notFull : x ≠ .full) :
    doFeed p slot serial s = s.refuseState p .slot := by
  simp only [doFeed, table, there]
  exact if_pos notFull

variable (full : t.slots[slot]? = some .full)
include full

theorem doFeed_of_busy (busy : s.tracker.feed ≠ none) : doFeed p slot serial s = s.refuse p .busy := by
  simp [doFeed, table, full, Option.isSome_iff_ne_none.mpr busy]

variable (free : s.tracker.feed = none)
include free

theorem doFeed_of_duplicate (known : serial ∈ s.tracker.serials) : doFeed p slot serial s = s.refuse p .duplicate := by
  simp [doFeed, table, full, free, known]

theorem doFeed_feeds (new : serial ∉ s.tracker.serials) :
    doFeed p slot serial s
      = { s with tracker := { s.tracker with
            input := some { t with slots := t.slots.set slot .fed }
            feed := some (.fed serial slot) } }.respond p .ok 0
          [b8 ({ t with slots := t.slots.set slot .fed } : InTable).full] := by
  simp [doFeed, table, full, free, new]

end Feed

/-! ### ZONE -/

/-- A strip record as ZONE enters it, before a program is bound (R126). -/
def StripRecord.entered (r : StripRecord) (mask : Vector Byte 8) : StripRecord :=
  { r with skipMask := some mask, binding := .waiting }

/-- The move from FEED to ZONE (R126). -/
def State.enterZone (s : State) (r : StripRecord) (mask : Vector Byte 8) : State :=
  { s with tracker := { s.tracker with feed := none, zone := some (r.entered mask) } }

section Zone

variable {p : PortId} {mask : Vector Byte 8} {s : State}

theorem doZone_of_no_strip (gone : s.tracker.feed = none) : doZone p mask s = s.refuseState p .noStrip := by
  rw [doZone, gone]

variable {r : StripRecord} (strip : s.tracker.feed = some r)
include strip

theorem doZone_of_busy (busy : s.tracker.zone ≠ none) : doZone p mask s = s.refuse p .busy := by
  simp only [doZone, strip]
  exact if_pos (Option.isSome_iff_ne_none.mpr busy)

variable (free : s.tracker.zone = none)
include free

theorem doZone_waits (unselected : s.programs.selection = none) :
    doZone p mask s = ((s.enterZone r mask).post .cc (.programRequired r.serial)).respond p .ok 0 [255, 0, 0, 0] := by
  simp [doZone, strip, free, State.selectedProgram, unselected, State.enterZone, StripRecord.entered]

theorem doZone_binds {slot : Nat} {prog : Program} (selected : s.programs.selection = some slot)
    (program : s.program? slot = some prog) :
    doZone p mask s
      = ((s.enterZone r mask).buildMap slot prog (r.entered mask)).respond p .ok 1
          (((s.enterZone r mask).buildMap slot prog (r.entered mask)).zoneData slot) := by
  simp [doZone, strip, free, State.selectedProgram, selected, program, State.enterZone, StripRecord.entered]

end Zone

/-- The map that a build lays out depends on the Pull Record Store only. -/
theorem State.buildMap_map_congr {s t : State} (pull : s.pull = t.pull) (slot : Nat) (prog : Program) (r : StripRecord) :
    (s.buildMap slot prog r).map = (t.buildMap slot prog r).map := by
  refine (State.checkComplete_map _).trans (Eq.trans ?_ (State.checkComplete_map _).symm)
  rw [pull]

theorem State.exists_buildMap_map (s : State) (slot : Nat) (prog : Program) (r : StripRecord) :
    ∃ m, (s.buildMap slot prog r).map = some m :=
  ⟨_, State.checkComplete_map _⟩

theorem State.zoneData_eq {s : State} {m : StripMap} {z : StripRecord} (map : s.map = some m)
    (zone : s.tracker.zone = some z) (slot : Nat) :
    s.zoneData slot
      = [b8 slot, b8 m.units.length, b8 m.skippedUnits,
          b8 ((if z.sampled = some true then 1 else 0) + (if m.complete = true then 2 else 0))] := by
  simp [State.zoneData, map, zone]

/-- Settles O41, by the checks of FEED and ZONE in the order of R125 and R126, and by the program selection. -/
theorem feedAndZoneMoveTheStrip : Obligations.FeedAndZoneMoveTheStrip := by
  refine ⟨fun slot serial s hears => ?_, fun mask s hears => ?_⟩
  · have tracker := State.taking_tracker s (.feed .mh slot serial)
    refine ⟨fun absent => ?_, fun tab table => ?_⟩
    · exact .of_refuseState (c := .feed) rfl rfl hears rfl (doFeed_of_no_table (by rwa [tracker]))
    rw [← tracker] at table
    refine ⟨fun beyond => ?_, fun x there notFull => ?_, fun full => ⟨fun busy => ?_, fun free => ?_⟩⟩
    · exact .of_carryOut rfl rfl hears rfl (doFeed_of_no_slot table beyond)
    · exact .of_refuseState (c := .feed) rfl rfl hears rfl (doFeed_of_not_full table there notFull)
    · exact .of_carryOut rfl rfl hears rfl (doFeed_of_busy table full (by rwa [tracker]))
    · intro known
      have knownIff : serial ∈ (s.taking (.feed .mh slot serial)).tracker.serials ↔ known := by
        simp [Tracker.mem_serials, free, known]
      rw [← tracker] at free
      refine ⟨fun twice => ?_, fun new => ?_⟩
      · exact .of_carryOut rfl rfl hears rfl (doFeed_of_duplicate table full free (knownIff.mpr twice))
      · exact .of_carryOut rfl rfl hears rfl (doFeed_feeds table full free (mt knownIff.mp new))
  · have tracker := State.taking_tracker s (.zone .mh mask)
    have programs := State.taking_programs s (.zone .mh mask)
    refine ⟨fun gone => ?_, fun there busy => ?_, fun r strip free => ?_⟩
    · exact .of_refuseState (c := .zone) rfl rfl hears rfl (doZone_of_no_strip (by rwa [tracker]))
    · obtain ⟨r, strip⟩ := Option.ne_none_iff_exists'.mp there
      exact .of_carryOut rfl rfl hears rfl (doZone_of_busy (r := r) (by rwa [tracker]) (by rwa [tracker]))
    intro moved
    rw [← tracker] at strip free
    refine ⟨fun unselected => ?_, fun slot prog selected program => ?_⟩
    · exact .of_carryOut rfl rfl hears rfl (doZone_waits strip free (by rwa [programs]))
    · obtain ⟨m, map⟩ := State.exists_buildMap_map (s.enterZone r mask) slot prog (r.entered mask)
      have zone {t : State} (pull : t.pull = s.pull) :
          (t.buildMap slot prog (r.entered mask)).tracker.zone
            = some { r.entered mask with binding := .bound slot, sampled := some s.pull.samples } := by
        rw [State.buildMap_tracker, pull]
      have pull : ((s.taking (.zone .mh mask)).enterZone r mask).pull = (s.enterZone r mask).pull := State.taking_pull ..
      refine ⟨m, _, map, zone (t := s.enterZone r mask) rfl, ?_⟩
      refine .of_carryOut rfl rfl hears rfl
        ((doZone_binds strip free (by rwa [programs]) (by rwa [State.taking_program?])).trans ?_)
      rw [State.zoneData_eq ((State.buildMap_map_congr pull ..).trans map) (zone pull)]
      rfl

end Sys2Proof.Machine
end

section
/-! ZREL at its taking (R128 to R130), and the walk of the selection list that creates the pull records (R145, R147). -/

namespace Sys2Proof.Machine

/-! ### The number of the next record -/

theorem PullStore.find_isSome_iff (p : PullStore) (n : Nat) :
    (p.find n).isSome = true ↔ n ∈ p.records.map PullRecord.id := by
  simp [PullStore.find, List.find?_isSome]

/-- Of as many following numbers as a list has entries and one more, one is not in it, whatever the modulus above its length. -/
theorem exists_not_mem_of_length_lt {modulus : Nat} {l : List Nat} (n : Nat) (fits : l.length < modulus) :
    ∃ e, e ≤ l.length ∧ (n + e) % modulus ∉ l := by
  refine Classical.byContradiction fun none => ?_
  have all : ((List.range (l.length + 1)).map fun e => (n + e) % modulus) ⊆ l := by
    intro x mem
    obtain ⟨e, le, rfl⟩ := List.mem_map.mp mem
    exact Classical.byContradiction fun free => none ⟨e, Nat.le_of_lt_succ (List.mem_range.mp le), free⟩
  have distinct : ((List.range (l.length + 1)).map fun e => (n + e) % modulus).Nodup := by
    refine List.pairwise_map.mpr (List.pairwise_lt_range.imp_of_mem fun {x y} _ hy lt same => ?_)
    have zero : (n + y - (n + x)) % modulus = 0 := Nat.sub_mod_eq_zero_of_mod_eq same.symm
    have le := List.mem_range.mp hy
    rw [Nat.mod_eq_of_lt (by omega)] at zero
    omega
  have length := distinct.length_le_of_subset all
  rw [List.length_map, List.length_range] at length
  omega

/-- The number of the next record is the first from the next record id on that the store does not hold (R147). -/
theorem PullStore.pickId_isNextFree {p : PullStore} (room : p.records.length < 65536) (next : p.nextId < 65536) :
    isNextFree 65536 (· ∈ p.records.map PullRecord.id) p.nextId p.pickId := by
  obtain ⟨e, le, free⟩ := exists_not_mem_of_length_lt (l := p.records.map PullRecord.id) p.nextId (by simpa using room)
  rw [List.length_map] at le
  have found := nextFree_isNextFree 65536 (fun n => (p.find n).isSome) p.records.length p.nextId next
    ⟨e, le, by rw [← Bool.not_eq_true, PullStore.find_isSome_iff]; exact free⟩
  simp only [PullStore.find_isSome_iff] at found
  exact found

/-! ### The walk of the selection list -/

theorem pullable_iff (v : Verdict) : pullable v = true ↔ v = .good ∨ v = .marginal := by
  simp [pullable]

theorem Program.limitSet_wire (prog : Program) (w : Nat) :
    (prog.wire w).limitSet = ((prog.table[w]?).map WireEntry.limitSet).getD 0 := by
  rw [Program.wire, List.getD_eq_getElem?_getD]
  cases prog.table[w]? <;> rfl

/-! ### The checks -/

@[simp] theorem State.taking_zrelCheck (s : State) (i : Instr) : (s.taking i).zrelCheck = s.zrelCheck := by
  simp only [State.zrelCheck, State.taking_tracker, State.taking_map, State.taking_boundProgram]

section Check

variable {s : State}

theorem State.zrelCheck_of_no_strip (gone : s.tracker.zone = none) : s.zrelCheck = .error .noStrip := by
  rw [State.zrelCheck, gone]

variable {r : StripRecord} (strip : s.tracker.zone = some r)
include strip

theorem State.zrelCheck_of_waiting (waits : r.binding = .waiting) : s.zrelCheck = .error .waiting := by
  simp only [State.zrelCheck, strip]
  exact if_pos waits

variable {m : StripMap} (bound : r.binding ≠ .waiting) (map : s.map = some m)
include bound map

/-- The checks of a bound strip with its map (R128). -/
theorem State.zrelCheck_of_bound :
    s.zrelCheck =
      if m.complete = false then .error .incomplete
      else if s.tracker.clamp ≠ .none then .error .clamp
      else if (s.boundProgram m).exportRequired && !m.exportTaken then .error .export_
      else if s.tracker.pull.isSome then .error .pullBusy
      else .ok (r, m) := by
  simp only [State.zrelCheck, strip, map, if_neg bound]

theorem State.zrelCheck_of_incomplete (incomplete : m.complete = false) : s.zrelCheck = .error .incomplete := by
  rw [State.zrelCheck_of_bound strip bound map, if_pos incomplete]

variable (complete : m.complete = true)
include complete

theorem State.zrelCheck_of_clamp (clamped : s.tracker.clamp ≠ .none) : s.zrelCheck = .error .clamp := by
  rw [State.zrelCheck_of_bound strip bound map, if_neg (by simp [complete]), if_pos clamped]

variable (free : s.tracker.clamp = .none)
include free

theorem State.zrelCheck_of_unread (required : (s.boundProgram m).exportRequired = true) (unread : m.exportTaken = false) :
    s.zrelCheck = .error .export_ := by
  rw [State.zrelCheck_of_bound strip bound map]
  simp [complete, free, required, unread]

variable (exported : (s.boundProgram m).exportRequired = false ∨ m.exportTaken = true)
include exported

/-- With the map exported where that is required, only the position PULL is left to check (R128). -/
theorem State.zrelCheck_of_exported :
    s.zrelCheck = if s.tracker.pull.isSome then .error .pullBusy else .ok (r, m) := by
  have fine : ((s.boundProgram m).exportRequired && !m.exportTaken) = false := by
    simpa only [Bool.and_eq_false_iff, Bool.not_eq_false'] using exported
  rw [State.zrelCheck_of_bound strip bound map]
  simp [complete, free, fine]

theorem State.zrelCheck_of_pullBusy (busy : s.tracker.pull ≠ none) : s.zrelCheck = .error .pullBusy := by
  rw [State.zrelCheck_of_exported strip bound map complete free exported, if_pos (Option.isSome_iff_ne_none.mpr busy)]

theorem State.zrelCheck_passes (empty : s.tracker.pull = none) : s.zrelCheck = .ok (r, m) := by
  rw [State.zrelCheck_of_exported strip bound map complete free exported, if_neg (by simp [empty])]

end Check

/-! ### The release -/

/-- A release but for its notice (R129): the map goes with its selection list, its program is READY again, the
cursors are absent, and the strip goes to PULL. -/
def State.moveToPull (s : State) (r : StripRecord) (m : StripMap) (k : Walk) : State :=
  { s with
    map := none
    pull := { k.store with selection := [] }
    programs := { s.programs with
      slots := s.programs.slots.setIfInBounds m.program
        ((s.program? m.program).map (fun (q : Program) => { q with state := .ready })) }
    issuer := { s.issuer with
      feeds := ⟨{ s.issuer.feeds.a with cursor := none }, { s.issuer.feeds.b with cursor := none }⟩ }
    tracker := { s.tracker with zone := none, pull := some (r.released m k.created) } }

theorem State.releaseZone_eq {s : State} {m : StripMap} (map : s.map = some m) (r : StripRecord) {k : Walk}
    (walked : s.pull.walk m (s.boundProgram m) = k) :
    s.releaseZone r m =
      if 0 < k.short then (s.moveToPull r m k).post .cc (.pullShort m.serial k.short k.created) else s.moveToPull r m k := by
  simp only [State.releaseZone, walked]
  by_cases short : 0 < k.short
  · simp only [if_pos short, State.discardMap, State.post_map, map]
    rfl
  · simp only [if_neg short, State.discardMap, map]
    rfl

theorem doZrel_of_error {p : PortId} {s : State} {why : SubReason} (refused : s.zrelCheck = .error why) :
    doZrel p s = s.refuseState p why := by
  rw [doZrel, refused]

theorem doZrel_releases {p : PortId} {s : State} {r : StripRecord} {m : StripMap} (passed : s.zrelCheck = .ok (r, m))
    {k : Walk} (walked : s.pull.walk m (s.boundProgram m) = k) :
    doZrel p s = (s.releaseZone r m).respond p .ok 0 (zrelData m k.created) := by
  rw [doZrel, passed, ← walked]

/-- Settles O42, by the checks of ZREL in the order of R128, and by the entries of the selection list. -/
theorem zrelReleasesTheStrip : Obligations.ZrelReleasesTheStrip := by
  intro s hears
  have refused {why : SubReason} (error : s.zrelCheck = .error why) : Refuses (.zrel .mh) s .state why.code :=
    .of_refuseState (c := .zrel) rfl rfl hears rfl (doZrel_of_error (by rwa [State.taking_zrelCheck]))
  refine ⟨fun p room next => PullStore.pickId_isNextFree (by omega) next,
    fun gone => refused (State.zrelCheck_of_no_strip gone), fun r strip =>
    ⟨fun waits => refused (State.zrelCheck_of_waiting strip waits), fun m bound map => ?_⟩⟩
  refine ⟨fun incomplete => refused (State.zrelCheck_of_incomplete strip bound map incomplete),
    fun complete clamped => refused (State.zrelCheck_of_clamp strip bound map complete clamped),
    fun complete free required unread => refused (State.zrelCheck_of_unread strip bound map complete free required unread),
    fun complete free exported =>
      ⟨fun busy => refused (State.zrelCheck_of_pullBusy strip bound map complete free exported busy), fun empty => ?_⟩⟩
  intro results visit k number
  have results_eq (e : SelEntry) : m.pullResults e = results e := by
    simp only [results, StripMap.pullResults, ← pullable_iff]
    cases m.units[e.unit]? with
    | none => rfl
    | some u =>
      dsimp only
      rcases u.slots[e.wire]? with _ | ⟨_ | _ | _ | ⟨_, _ | _, _, _⟩ | _, _⟩ <;> rfl
  have visit_eq : Walk.visit m (s.boundProgram m) = visit := by
    funext k e
    simp only [Walk.visit, visit, results_eq, PullStore.create, Program.limitSet_wire]
    rfl
  have walked : (s.taking (.zrel .mh)).pull.walk m ((s.taking (.zrel .mh)).boundProgram m) = k := by
    rw [State.taking_pull, State.taking_boundProgram, PullStore.walk, visit_eq]
  have passed : (s.taking (.zrel .mh)).zrelCheck = .ok (r, m) := by
    rw [State.taking_zrelCheck]
    exact State.zrelCheck_passes strip bound map complete free exported empty
  refine .of_carryOut rfl rfl hears rfl ((doZrel_releases passed walked).trans ?_)
  rw [State.releaseZone_eq (by rwa [State.taking_map]) r walked, State.moveToPull, State.taking_program?]
  rfl

end Sys2Proof.Machine
end

section
/-! CLAMP and CLDONE at their taking (R133, R134, R136). -/

namespace Sys2Proof.Machine

@[simp] theorem State.taking_firstCount (s : State) (i : Instr) : (s.taking i).firstCount = s.firstCount := by
  rw [State.firstCount, State.firstCount, State.taking_map]

@[simp] theorem State.taking_openBalls (s : State) (i : Instr) : (s.taking i).openBalls = s.openBalls := by
  rw [State.openBalls, State.openBalls, State.taking_capture]

section Clamp

variable {p : PortId} {s : State}

theorem doClamp_grants (free : s.tracker.clamp = .none) (idle : s.firstCount + s.openBalls = 0) :
    doClamp p s = (s.setClamp .granted).respond p .ok 0 [0, 0] := by
  obtain ⟨first, balls⟩ := Nat.add_eq_zero_iff.mp idle
  simp only [doClamp, free]
  rw [if_pos (show s.clampWait = 0 from idle), State.clampData, first, balls]
  rfl

theorem doClamp_requests (free : s.tracker.clamp = .none) (busy : s.firstCount + s.openBalls ≠ 0) :
    doClamp p s = (s.setClamp .requested).respond p .pending 0 [b8 s.firstCount, b8 s.openBalls] := by
  simp only [doClamp, free]
  exact if_neg busy

theorem doClamp_of_requested (requested : s.tracker.clamp = .requested) :
    doClamp p s = s.respond p .pending 1 [b8 s.firstCount, b8 s.openBalls] := by
  simp only [doClamp, requested]
  rfl

theorem doClamp_of_granted (granted : s.tracker.clamp = .granted) :
    doClamp p s = s.respond p .ok 1 [b8 s.firstCount, b8 s.openBalls] := by
  simp only [doClamp, granted]
  rfl

end Clamp

/-- Settles O44, by the clamp state and the wait count. -/
theorem clampAndCldone : Obligations.ClampAndCldone := by
  intro s hears isBall firsts balls clamped
  have ball (h : Head) : (s.capture h).openBall = isBall h := by
    simp only [isBall, BondCapture.openBall]
    rcases (s.capture h).window with _ | ⟨⟨t, ⟨⟩⟩ | _ | _, _, _, _, _, _⟩ <;> rfl
  have count : s.openBalls = balls := by rw [State.openBalls, ball, ball]
  have taken {c : Clamp} (i : Instr) (clamp : s.tracker.clamp = c) : (s.taking i).tracker.clamp = c := by
    rwa [State.taking_tracker]
  refine ⟨fun free idle => ?_, fun free busy => ?_, fun requested => ?_, fun granted => ?_, ?_⟩
  · refine .of_carryOut rfl rfl hears rfl (doClamp_grants (taken _ free) ?_)
    rwa [State.taking_firstCount, State.taking_openBalls, count]
  · refine .of_carryOut rfl rfl hears rfl ((doClamp_requests (taken _ free) ?_).trans ?_)
    · rwa [State.taking_firstCount, State.taking_openBalls, count]
    · rw [State.taking_firstCount, State.taking_openBalls, count]
      rfl
  · refine .of_carryOut (u := id) rfl rfl hears rfl ((doClamp_of_requested (taken _ requested)).trans ?_)
    rw [State.taking_firstCount, State.taking_openBalls, count]
    rfl
  · refine .of_carryOut (u := id) rfl rfl hears rfl ((doClamp_of_granted (taken _ granted)).trans ?_)
    rw [State.taking_firstCount, State.taking_openBalls, count]
    rfl
  · refine .of_carryOut (f := doCldone .mh) rfl rfl hears rfl ?_
    rw [doCldone, State.taking_tracker]
    cases s.tracker.clamp <;> rfl

end Sys2Proof.Machine
end

section
/-! The records of the Pull Record Store under its law (R144, R147), and the close verdicts of a map (R25): what changes them
keeps them. -/

namespace Sys2Proof.Machine

/-! ### The records -/

/-- What the law of the Pull Record Store says of its records, its next record id and whether a pull capture is present
(R144, R147). -/
structure RecordsLaw (records : List PullRecord) (next : Nat) (capturing : Bool) : Prop where
  room : records.length ≤ Config.storeCapacity
  distinct : (records.map PullRecord.id).Nodup
  ids : ∀ r ∈ records, r.id < 65536
  nextId : next < 65536
  testing : records.countP (fun r => r.state == .testing) = if capturing then 1 else 0
  verdicts : ∀ r ∈ records, r.ballVerdict.pulls ∧ r.stitchVerdict.pulls

/-- The law of a store. It reads the records, the next record id and the presence of the capture only. -/
def PullStore.law (p : PullStore) : Prop := RecordsLaw p.records p.nextId p.capture.isSome

theorem State.storeLaw_iff (s : State) : s.storeLaw ↔ s.pull.law ∧ s.closeLaw := by
  constructor
  · rintro ⟨room, distinct, ids, nextId, testing, verdicts, close⟩
    exact ⟨⟨room, distinct, ids, nextId, testing, verdicts⟩, close⟩
  · rintro ⟨⟨room, distinct, ids, nextId, testing, verdicts⟩, close⟩
    exact ⟨room, distinct, ids, nextId, testing, verdicts, close⟩

section Records

variable {records : List PullRecord} {next : Nat} {capturing : Bool}

theorem RecordsLaw.empty : RecordsLaw [] 0 false :=
  ⟨Nat.zero_le _, .nil, nofun, Nat.zero_lt_succ _, rfl, nofun⟩

/-- New states of the records keep the law if as many are TESTING as captures are present. -/
theorem RecordsLaw.map_state (law : RecordsLaw records next capturing) {f : PullRecord → PullRecord}
    (state : ∀ r, ∃ st, f r = { r with state := st }) {capturing' : Bool}
    (testing : (records.map f).countP (fun r => r.state == .testing) = if capturing' then 1 else 0) :
    RecordsLaw (records.map f) next capturing' where
  room := (List.length_map f).symm ▸ law.room
  distinct := by
    have same : PullRecord.id ∘ f = PullRecord.id := by
      funext r
      obtain ⟨st, eq⟩ := state r
      rw [Function.comp_apply, eq]
    rw [List.map_map, same]
    exact law.distinct
  ids := List.forall_mem_map.mpr fun r mem => by
    obtain ⟨st, eq⟩ := state r
    rw [eq]
    exact law.ids r mem
  nextId := law.nextId
  testing := testing
  verdicts := List.forall_mem_map.mpr fun r mem => by
    obtain ⟨st, eq⟩ := state r
    rw [eq]
    exact law.verdicts r mem

/-- The replacement of a record's state moves the number of TESTING records as the record moves. -/
theorem countP_testing_setState {r : PullRecord} {id : Nat} (distinct : (records.map PullRecord.id).Nodup)
    (found : records.find? (fun r => r.id == id) = some r) (st : RecordState) :
    (records.map fun r => if r.id = id then { r with state := st } else r).countP (fun r => r.state == .testing)
        + (if r.state = .testing then 1 else 0)
      = records.countP (fun r => r.state == .testing) + if st = .testing then 1 else 0 := by
  induction records with
  | nil => nomatch found
  | cons x xs ih =>
    obtain ⟨new, distinct⟩ := List.nodup_cons.mp distinct
    simp only [List.map_cons, List.countP_cons, beq_iff_eq]
    by_cases here : x.id = id
    · obtain rfl : x = r := by simpa [List.find?_cons, here] using found
      have others : (xs.map fun r => if r.id = id then { r with state := st } else r) = xs := by
        refine (List.map_congr_left fun y mem => if_neg fun same => new ?_).trans (List.map_id xs)
        exact List.mem_map.mpr ⟨y, mem, same.trans here.symm⟩
      rw [others, if_pos here]
      exact Nat.add_right_comm ..
    · have there : xs.find? (fun r => r.id == id) = some r := by simpa [List.find?_cons, here] using found
      have moved := ih distinct there
      simp only [if_neg here]
      omega

/-- A finished record that leaves the store. -/
theorem RecordsLaw.erase (law : RecordsLaw records next capturing) {r : PullRecord} (finished : r.state ≠ .testing) :
    RecordsLaw (records.erase r) next capturing where
  room := Nat.le_trans List.erase_sublist.length_le law.room
  distinct := (List.Sublist.map _ (List.erase_sublist ..)).nodup law.distinct
  ids x mem := law.ids x (List.mem_of_mem_erase mem)
  nextId := law.nextId
  testing := by
    rw [← law.testing]
    by_cases stored : r ∈ records
    · rw [(List.perm_cons_erase stored).countP_eq, List.countP_cons_of_neg (by simpa using finished)]
    · rw [List.erase_of_not_mem stored]
  verdicts x mem := law.verdicts x (List.mem_of_mem_erase mem)

theorem RecordsLaw.eraseAll (law : RecordsLaw records next capturing) {rs : List PullRecord}
    (finished : ∀ r ∈ rs, r.state ≠ .testing) :
    RecordsLaw (rs.foldl (fun l r => l.erase r) records) next capturing := by
  induction rs generalizing records with
  | nil => exact law
  | cons r rs ih =>
    obtain ⟨first, others⟩ := List.forall_mem_cons.mp finished
    exact ih (law.erase first) others

/-- A PENDING record appended under an id that no record has (R147). -/
theorem RecordsLaw.append (law : RecordsLaw records next capturing) {r : PullRecord}
    (room : records.length < Config.storeCapacity) (new : r.id ∉ records.map PullRecord.id) (id : r.id < 65536)
    (pending : r.state = .pending) (verdicts : r.ballVerdict.pulls ∧ r.stitchVerdict.pulls) {next' : Nat}
    (nextId : next' < 65536) : RecordsLaw (records ++ [r]) next' capturing where
  room := by rw [List.length_append]; exact room
  distinct := by
    rw [List.map_append]
    refine List.nodup_append.mpr ⟨law.distinct, List.pairwise_singleton _ _, fun x old y last same => new ?_⟩
    rwa [← List.mem_singleton.mp last, ← same]
  ids := List.forall_mem_append.mpr ⟨law.ids, List.forall_mem_singleton.mpr id⟩
  nextId := nextId
  testing := by simp [pending, law.testing]
  verdicts := List.forall_mem_append.mpr ⟨law.verdicts, List.forall_mem_singleton.mpr verdicts⟩

end Records

/-! ### The close verdicts -/

/-- A slot closed with a ball and a stitch result holds the worse of their verdicts (R25). -/
def SlotPhase.ClosesWorse (ph : SlotPhase) : Prop :=
  ∀ ball stitch v c, ph = .closed ball (some stitch) v c → v = Verdict.worse ball.verdict stitch.verdict

theorem SlotPhase.closesWorse_of_no_stitch {ph : SlotPhase} (lacks : ph.stitch? = none) : ph.ClosesWorse := by
  rintro ball stitch v c rfl
  nomatch lacks

/-- The close verdicts of a unit. -/
def UnitRec.ClosesWorse (r : UnitRec) : Prop := ∀ sl ∈ r.slots, sl.phase.ClosesWorse

/-- The close verdicts of a map; it reads the units only. -/
def StripMap.ClosesWorse (m : StripMap) : Prop := ∀ r ∈ m.units, r.ClosesWorse

/-- GOOD or MARGINAL is the worse of two verdicts only where both are. -/
theorem Verdict.pulls_of_worse {x y : Verdict} (pulls : (Verdict.worse x y).pulls) : x.pulls ∧ y.pulls := by
  rw [Verdict.worse_eq] at pulls
  unfold Verdict.pulls at *
  cases x <;> cases y <;> simp at *

theorem forall_mem_modify {α : Type} {P : α → Prop} {l : List α} (all : ∀ x ∈ l, P x) {f : α → α}
    (keeps : ∀ x, P x → P (f x)) (i : Nat) : ∀ x ∈ l.modify i f, P x := by
  intro x mem
  obtain ⟨j, at_j⟩ := List.mem_iff_getElem?.mp mem
  rw [List.getElem?_modify] at at_j
  obtain ⟨y, at_y, rfl⟩ := Option.map_eq_some_iff.mp at_j
  have old := all y (List.mem_of_getElem? at_y)
  split
  · exact keeps y old
  · exact old

theorem StripMap.ClosesWorse.set {m : StripMap} (law : m.ClosesWorse) {r : UnitRec} (unit : r.ClosesWorse) (u : Nat) :
    ∀ q ∈ m.units.set u r, q.ClosesWorse := fun q mem => by
  rcases List.mem_or_eq_of_mem_set mem with old | rfl
  · exact law q old
  · exact unit

theorem UnitRec.ClosesWorse.setPhase {r : UnitRec} (law : r.ClosesWorse) (w : Nat) (sl : WireSlot) {ph : SlotPhase}
    (closes : ph.ClosesWorse) : (r.setPhase w sl ph).ClosesWorse := fun x mem => by
  rcases List.mem_or_eq_of_mem_set mem with old | rfl
  · exact law x old
  · exact closes

theorem UnitRec.ClosesWorse.skip {r : UnitRec} (law : r.ClosesWorse) (table : List WireEntry) :
    (r.skip table).ClosesWorse := by
  unfold UnitRec.skip
  split
  · refine List.forall_mem_map.mpr fun sl mem => ?_
    unfold WireSlot.skip
    split
    · exact SlotPhase.closesWorse_of_no_stitch rfl
    · exact law sl mem
  · exact law
  · exact law

/-- A transition request keeps the close verdicts if every phase it enters does and it leaves the other slots (R22). -/
theorem StripMap.ClosesWorse.request {m : StripMap} (law : m.ClosesWorse) (u w : Nat)
    {req : UnitRec → SlotPhase → Option (SlotPhase × (UnitRec → UnitRec))}
    (moves : ∀ r ph ph' change, req r ph = some (ph', change) → UnitRec.Moves change)
    (closes : ∀ r ph ph' change, req r ph = some (ph', change) → ph'.ClosesWorse) : (m.request u w req).ClosesWorse := by
  unfold StripMap.request
  split
  · exact law
  · next r unit =>
    split
    · exact law
    · next sl slot =>
      split
      · exact law
      · next ph change req_eq =>
        have entered := (law r (List.mem_of_getElem? unit)).setPhase w sl (closes _ _ _ _ req_eq)
        refine law.set (fun x mem => entered x ?_) u
        rwa [(moves _ _ _ _ req_eq).slots] at mem

theorem requestIssue_closesWorse (h : Head) (n : Nat) (r : UnitRec) (ph ph' : SlotPhase) (change : UnitRec → UnitRec)
    (e : requestIssue h n r ph = some (ph', change)) : ph'.ClosesWorse := by
  unfold requestIssue at e
  split at e <;> cases e
  exact SlotPhase.closesWorse_of_no_stitch rfl

theorem requestBall_closesWorse (h : Head) (n : Nat) (x : BondResult) (r : UnitRec) (ph ph' : SlotPhase)
    (change : UnitRec → UnitRec) (e : requestBall h n x r ph = some (ph', change)) : ph'.ClosesWorse := by
  unfold requestBall at e
  split at e
  · split at e <;> cases e
    exact SlotPhase.closesWorse_of_no_stitch rfl
  · cases e

theorem requestStitch_closesWorse (h : Head) (n tier : Nat) (x : BondResult) (r : UnitRec) (ph ph' : SlotPhase)
    (change : UnitRec → UnitRec) (e : requestStitch h n tier x r ph = some (ph', change)) : ph'.ClosesWorse := by
  unfold requestStitch at e
  split at e
  · split at e <;> cases e
    rintro ball stitch v c ⟨⟩
    rfl
  · cases e

theorem requestRelease_closesWorse (h : Head) (n tier : Nat) (r : UnitRec) (ph ph' : SlotPhase)
    (change : UnitRec → UnitRec) (e : requestRelease h n tier r ph = some (ph', change)) : ph'.ClosesWorse := by
  unfold requestRelease at e
  split at e
  · split at e
    · split at e <;> cases e <;> exact SlotPhase.closesWorse_of_no_stitch rfl
    · cases e
  · split at e <;> cases e
    exact SlotPhase.closesWorse_of_no_stitch rfl
  · cases e

theorem StripMap.ClosesWorse.skipUnit {m : StripMap} (law : m.ClosesWorse) (table : List WireEntry) (u : Nat) :
    (m.skipUnit table u).ClosesWorse := by
  unfold StripMap.skipUnit
  split
  · exact law
  · next r unit => exact law.set ((law r (List.mem_of_getElem? unit)).skip table) u

theorem Program.freshMap_closesWorse (prog : Program) (slot : Nat) (serial : W32) :
    (prog.freshMap slot serial).ClosesWorse := by
  intro r unit sl mem
  rw [List.eq_of_mem_replicate unit] at mem
  rw [List.eq_of_mem_replicate mem]
  exact SlotPhase.closesWorse_of_no_stitch rfl

theorem StripMap.ClosesWorse.applyMask {m : StripMap} (law : m.ClosesWorse) (table : List WireEntry) (mask : List Byte) :
    (m.applyMask table mask).ClosesWorse := by
  unfold StripMap.applyMask
  induction List.range m.units.length generalizing m with
  | nil => exact law
  | cons u us ih =>
    rw [List.foldl_cons]
    split
    · exact ih (law.skipUnit table u)
    · exact ih law

theorem UnitRec.ClosesWorse.mark {r : UnitRec} (law : r.ClosesWorse) (w : Nat) : (r.mark w).ClosesWorse :=
  forall_mem_modify (P := fun sl : WireSlot => sl.phase.ClosesWorse) (f := fun sl => { sl with pullSelected := true }) law
    (fun _ slot => slot) w

theorem StripMap.ClosesWorse.marks {m : StripMap} (law : m.ClosesWorse) (marks : List SlotId) :
    (marks.foldl StripMap.mark m).ClosesWorse := by
  induction marks generalizing m with
  | nil => exact law
  | cons i marks ih =>
    exact ih (forall_mem_modify (f := fun r => r.mark i.wire) law (fun _ unit => unit.mark i.wire) i.unit)

theorem StripMap.ClosesWorse.checked {m : StripMap} (law : m.ClosesWorse) : m.checked.ClosesWorse := by
  unfold StripMap.checked
  split <;> exact law

/-! ### The walk of the selection list -/

/-- The results that a record is made of stand in a CLOSED slot of the map with a close verdict GOOD or MARGINAL (R147). -/
theorem StripMap.pullResults_eq_some {m : StripMap} {e : SelEntry} {ball stitch : BondResult}
    (results : m.pullResults e = some (ball, stitch)) :
    ∃ r ∈ m.units, ∃ sl ∈ r.slots, ∃ v c, sl.phase = .closed ball (some stitch) v c ∧ v.pulls := by
  unfold StripMap.pullResults at results
  split at results
  · cases results
  · next r unit =>
    split at results
    · cases results
    · split at results
      · next slot =>
        split at results <;> cases results
        next pulls =>
        exact ⟨r, List.mem_of_getElem? unit, _, List.mem_of_getElem? slot, _, _, rfl, (pullable_iff _).mp pulls⟩
      · cases results

theorem StripMap.ClosesWorse.verdicts_of_pullResults {m : StripMap} (law : m.ClosesWorse) {e : SelEntry}
    {ball stitch : BondResult} (results : m.pullResults e = some (ball, stitch)) :
    ball.verdict.pulls ∧ stitch.verdict.pulls := by
  obtain ⟨r, unit, sl, slot, v, c, closed, pulls⟩ := StripMap.pullResults_eq_some results
  exact Verdict.pulls_of_worse (law r unit sl slot _ _ _ _ closed ▸ pulls)

theorem PullStore.law_create {p : PullStore} (law : p.law) (room : p.records.length < Config.storeCapacity) {m : StripMap}
    {prog : Program} {e : SelEntry} {ball stitch : BondResult}
    (verdicts : ball.verdict.pulls ∧ stitch.verdict.pulls) : (p.create m prog e ball stitch).law := by
  have small : Config.storeCapacity = 128 := rfl
  obtain ⟨new, k, pick, -⟩ := PullStore.pickId_isNextFree (p := p) (by omega) law.nextId
  exact RecordsLaw.append law room new (by dsimp only; omega) rfl verdicts (Nat.mod_lt _ (by omega))

theorem Walk.visit_law {m : StripMap} (closes : m.ClosesWorse) (prog : Program) {k : Walk} (law : k.store.law)
    (e : SelEntry) : (k.visit m prog e).store.law := by
  unfold Walk.visit
  split
  · exact law
  · next ball stitch results =>
    split
    · next room => exact PullStore.law_create law room (closes.verdicts_of_pullResults results)
    · exact law

/-- The records that a release creates keep the law (R147). -/
theorem PullStore.law_walk {p : PullStore} (law : p.law) {m : StripMap} (closes : m.ClosesWorse) (prog : Program) :
    (p.walk m prog).store.law := by
  have visited (entries : List SelEntry) {k : Walk} (law : k.store.law) :
      (entries.foldl (Walk.visit m prog) k).store.law := by
    induction entries generalizing k with
    | nil => exact law
    | cons e entries ih => exact ih (Walk.visit_law closes prog law e)
  exact visited p.selection law

end Sys2Proof.Machine
end

section
/-! The law of the Pull Record Store through the operations, the commands and the events, and so through every step. -/

namespace Sys2Proof.Machine

/-! ### The state's operations -/

/-- The law reads the store and the map only. -/
theorem State.storeLaw_congr {s t : State} (law : s.storeLaw) (pull : t.pull = s.pull := by simp)
    (map : t.map = s.map := by simp) : t.storeLaw := by
  rw [State.storeLaw_iff, State.closeLaw, pull, map]
  exact s.storeLaw_iff.mp law

theorem State.storeLaw_of_pull {s t : State} (law : s.storeLaw) (store : t.pull.law) (map : t.map = s.map := by simp) :
    t.storeLaw := by
  rw [State.storeLaw_iff, State.closeLaw, map]
  exact ⟨store, (s.storeLaw_iff.mp law).2⟩

/-- The law of a state with a map, and of one without. -/
theorem State.storeLaw_of_map {s : State} {m : StripMap} (store : s.pull.law) (map : s.map = some m)
    (closes : m.ClosesWorse) : s.storeLaw :=
  s.storeLaw_iff.mpr ⟨store, fun _ map' => Option.some.inj (map.symm.trans map') ▸ closes⟩

theorem State.storeLaw_of_no_map {s : State} (store : s.pull.law) (none : s.map = none) : s.storeLaw :=
  s.storeLaw_iff.mpr ⟨store, fun _ map => nomatch none.symm.trans map⟩

/-- The law's two parts. -/
theorem State.storeLaw.pull {s : State} (law : s.storeLaw) : s.pull.law := (s.storeLaw_iff.mp law).1

theorem State.storeLaw.closesWorse {s : State} (law : s.storeLaw) {m : StripMap} (map : s.map = some m) : m.ClosesWorse :=
  (s.storeLaw_iff.mp law).2 m map

theorem State.storeLaw_onMap {s : State} (law : s.storeLaw) {f : StripMap → StripMap}
    (keeps : ∀ m, m.ClosesWorse → (f m).ClosesWorse) : (s.onMap f).storeLaw := by
  refine (State.storeLaw_iff _).mpr ⟨law.pull, fun m' map' => ?_⟩
  obtain ⟨m, map, rfl⟩ := Option.map_eq_some_iff.mp map'
  exact keeps m (law.closesWorse map)

theorem State.storeLaw_checkComplete {s : State} (law : s.storeLaw) : s.checkComplete.storeLaw := by
  have checked : (s.onMap StripMap.checked).storeLaw := State.storeLaw_onMap law fun m closes => closes.checked
  exact State.storeLaw_congr checked (State.checkComplete_pull s) (State.checkComplete_map s)

theorem State.storeLaw_buildMap {s : State} (law : s.storeLaw) (slot : Nat) (prog : Program) (r : StripRecord) :
    (s.buildMap slot prog r).storeLaw := by
  refine State.storeLaw_congr (State.storeLaw_checkComplete (State.storeLaw_of_map (s := { s with
    map := _, pull := _, tracker := _ }) ?_ rfl ?_)) rfl rfl
  · exact law.pull
  · exact StripMap.ClosesWorse.marks (StripMap.ClosesWorse.applyMask (prog.freshMap_closesWorse slot r.serial) prog.table _)
      _

theorem State.storeLaw_cancelTicket {s : State} (law : s.storeLaw) (h : Head) (why : StrayReason) (t : Ticket) :
    (s.cancelTicket h why t).storeLaw := by
  have released := State.storeLaw_onMap law fun m closes =>
    closes.request t.unit t.wire (requestRelease_moves h t.number t.tier) (requestRelease_closesWorse h t.number t.tier)
  exact State.storeLaw_congr (State.storeLaw_onMap released fun _ closes => closes.checked) (State.cancelTicket_pull ..)
    (State.cancelTicket_map ..)

theorem State.storeLaw_grantTicket {s : State} (law : s.storeLaw) (h : Head) (t : Ticket) : (s.grantTicket h t).storeLaw :=
  State.storeLaw_congr (State.storeLaw_onMap law fun m closes =>
    closes.request t.unit t.wire (requestIssue_moves h t.number) (requestIssue_closesWorse h t.number)) (by simp) rfl

theorem State.storeLaw_issueTo {s : State} (law : s.storeLaw) (h : Head) (t : Ticket) : (s.issueTo h t).storeLaw :=
  State.storeLaw_congr (State.storeLaw_grantTicket law h t) (by simp) rfl

theorem State.storeLaw_commit {s : State} (law : s.storeLaw) (h : Head) (t : Ticket) (ph : Phase) (r : BondResult) :
    (s.commit h t ph r).storeLaw := by
  cases ph with
  | ball =>
    exact State.storeLaw_onMap law fun m closes =>
      closes.request _ _ (requestBall_moves h t.number r) (requestBall_closesWorse h t.number r)
  | stitch =>
    have stitched := State.storeLaw_onMap law fun m closes =>
      closes.request t.unit t.wire (requestStitch_moves h t.number t.tier r) (requestStitch_closesWorse h t.number t.tier r)
    exact State.storeLaw_of_pull stitched law.pull rfl

theorem State.storeLaw_closeBound {s : State} (law : s.storeLaw) (h : Head) (w : Window) (t : Ticket) (ph : Phase) :
    (s.closeBound h w t ph).storeLaw := by
  have closed (r : BondResult) (x y : Bool) (c : BondCapture) :
      ((((s.commit h t ph r).setCapture h c).reportVerdict h t ph r x y).checkComplete.checkClamp).storeLaw := by
    refine State.storeLaw_congr (State.storeLaw_checkComplete ?_) (State.checkClamp_pull _) (State.checkClamp_map _)
    exact State.storeLaw_congr (State.storeLaw_commit law h t ph r)
  cases ph with
  | ball => exact closed ..
  | stitch => exact State.storeLaw_congr (closed ..) (State.trigger_pull _) (State.trigger_map _)

theorem State.storeLaw_closeWindow {s : State} (law : s.storeLaw) (h : Head) : (s.closeWindow h).storeLaw := by
  unfold State.closeWindow
  dsimp only
  split
  · exact law
  · split
    · exact State.storeLaw_closeBound (State.storeLaw_congr law) ..
    · exact State.storeLaw_congr law
    · exact State.storeLaw_congr law

/-! ### Serves -/

theorem serveNext_storeLaw {s : State} (law : s.storeLaw) (h : Head) : (serveNext h s).storeLaw := by
  unfold serveNext
  split
  · exact State.storeLaw_congr law
  · split
    · next m i _ _ => exact State.storeLaw_congr (State.storeLaw_issueTo law h (s.ticketFor m h i))
    · exact State.storeLaw_congr law
    · exact law

theorem serveClaim_storeLaw {s : State} (law : s.storeLaw) (h : Head) (u w : Nat) : (serveClaim h u w s).storeLaw := by
  unfold serveClaim
  split
  · exact State.storeLaw_congr law
  · next t _ => exact State.storeLaw_congr (State.storeLaw_grantTicket law h t)

theorem serveFill_storeLaw {s : State} (law : s.storeLaw) (h : Head) : (serveFill h s).storeLaw := by
  unfold serveFill
  split
  · next m i _ _ => exact State.storeLaw_congr (State.storeLaw_issueTo law h (s.ticketFor m h i))
  · exact law

theorem doArbiterServe_storeLaw {s : State} (law : s.storeLaw) : (doArbiterServe s).storeLaw := by
  unfold doArbiterServe
  split
  · exact law
  · split
    · exact serveNext_storeLaw (State.storeLaw_congr law) _
    · exact serveClaim_storeLaw (State.storeLaw_congr law) ..
    · exact law

theorem doFillServe_storeLaw {s : State} (law : s.storeLaw) : (doFillServe s).storeLaw := by
  unfold doFillServe
  split
  · exact law
  · split
    · exact law
    · exact serveFill_storeLaw law _

/-! ### Commands on the map -/

theorem doPsel_storeLaw {s : State} (law : s.storeLaw) (p : PortId) (v : Nat) : (doPsel p v s).storeLaw := by
  unfold doPsel
  split
  · exact law
  split
  · exact State.storeLaw_congr law
  split
  · exact State.storeLaw_congr law
  split
  · exact State.storeLaw_congr law
  dsimp only
  split
  · exact State.storeLaw_congr law
  · refine State.storeLaw_congr ?_ (State.respond_pull ..) (State.respond_map ..)
    exact State.storeLaw_buildMap (State.storeLaw_congr law) ..

theorem doZone_storeLaw {s : State} (law : s.storeLaw) (p : PortId) (mask : Vector Byte 8) : (doZone p mask s).storeLaw := by
  unfold doZone
  split
  · exact State.storeLaw_congr law
  split
  · exact State.storeLaw_congr law
  dsimp only
  split
  · refine State.storeLaw_congr ?_ (State.respond_pull ..) (State.respond_map ..)
    exact State.storeLaw_buildMap (State.storeLaw_congr law) ..
  · exact State.storeLaw_congr law

theorem doSkipu_storeLaw {s : State} (law : s.storeLaw) (p : PortId) (u : Nat) : (doSkipu p u s).storeLaw := by
  unfold doSkipu
  split
  · exact State.storeLaw_congr law
  next m map =>
  split
  · exact State.storeLaw_congr law
  next r _ =>
  have skipped : { s with
      map := some (m.skipCommand (s.boundProgram m).table u (r.state != UnitState.skipped)) }.checkComplete.storeLaw :=
    State.storeLaw_checkComplete (State.storeLaw_of_map law.pull rfl 
      (StripMap.ClosesWorse.skipUnit (law.closesWorse map) _ u))
  dsimp only
  split
  · exact State.storeLaw_congr skipped
  · exact State.storeLaw_congr skipped

theorem doMaptake_storeLaw {s : State} (law : s.storeLaw) (p : PortId) : (doMaptake p s).storeLaw := by
  unfold doMaptake
  split
  · exact State.storeLaw_congr law
  next m map =>
  split
  · exact State.storeLaw_congr law
  · have closes := law.closesWorse map
    exact State.storeLaw_of_map (m := { m with exportTaken := true }) law.pull rfl closes

theorem doCancel_storeLaw {s : State} (law : s.storeLaw) (p : PortId) (n : Nat) (h : Head) :
    (doCancel p n h s).storeLaw := by
  unfold doCancel
  split
  · exact State.storeLaw_congr law
  · next t _ => exact State.storeLaw_congr (State.storeLaw_cancelTicket law h .cancelled t)

theorem State.storeLaw_cancelAll {s : State} (law : s.storeLaw) (h : Head) (why : StrayReason) (ts : List Ticket) :
    (ts.foldl (fun s t => s.cancelTicket h why t) s).storeLaw := by
  induction ts generalizing s with
  | nil => exact law
  | cons t ts ih => exact ih (State.storeLaw_cancelTicket law h why t)

theorem doFreset_storeLaw {s : State} (law : s.storeLaw) (p : PortId) (h : Head) : (doFreset p h s).storeLaw := by
  have cancelled := State.storeLaw_cancelAll law h .freset (s.feed h).tickets
  unfold doFreset
  dsimp only
  split
  · exact State.storeLaw_congr cancelled
  · exact State.storeLaw_congr cancelled

theorem State.map_of_zrelCheck_ok {s : State} {r : StripRecord} {m : StripMap} (ok : s.zrelCheck = .ok (r, m)) :
    s.map = some m := by
  unfold State.zrelCheck at ok
  split at ok
  · cases ok
  split at ok
  · cases ok
  split at ok
  · cases ok
  next m' map =>
  iterate 4
    split at ok
    · cases ok
  cases ok
  exact map

theorem State.storeLaw_moveToPull {s : State} {k : Walk} (store : k.store.law) (r : StripRecord) (m : StripMap) :
    (s.moveToPull r m k).storeLaw :=
  State.storeLaw_of_no_map store rfl

theorem doZrel_storeLaw {s : State} (law : s.storeLaw) (p : PortId) : (doZrel p s).storeLaw := by
  cases check : s.zrelCheck with
  | error why =>
    rw [doZrel_of_error check]
    exact State.storeLaw_congr law
  | ok passed =>
    obtain ⟨r, m⟩ := passed
    have map := State.map_of_zrelCheck_ok check
    have moved := State.storeLaw_moveToPull (s := s)
      (PullStore.law_walk law.pull (law.closesWorse map) (s.boundProgram m)) r m
    rw [doZrel_releases check rfl, State.releaseZone_eq map r rfl]
    split
    · exact State.storeLaw_congr moved
    · exact State.storeLaw_congr moved

/-! ### Commands on the store -/

theorem doSplan_storeLaw {s : State} (law : s.storeLaw) (p : PortId) (period limit count : Nat) (units : List Byte) :
    (doSplan p period limit count units s).storeLaw := by
  unfold doSplan
  split
  · exact State.storeLaw_congr law
  dsimp only
  split
  · exact State.storeLaw_congr law
  split
  · exact State.storeLaw_congr law
  · exact law

theorem PullStore.finished_closed (p : PullStore) (k : Nat) : ∀ r ∈ p.finished k, r.state ≠ .testing := by
  intro r mem testing
  have closed := (List.mem_filter.mp (List.mem_of_mem_take mem)).2
  simp [PullRecord.open?, testing] at closed

theorem doPtake_storeLaw {s : State} (law : s.storeLaw) (p : PortId) (k : Nat) : (doPtake p k s).storeLaw := by
  unfold doPtake
  split
  · exact State.storeLaw_congr law
  · exact State.storeLaw_of_pull law (RecordsLaw.eraseAll law.pull (s.pull.finished_closed k)) rfl

/-- A record's state replaced, and the capture with it: the capture comes and goes with TESTING (R148, R150, R152). -/
theorem PullStore.law_setState {p : PullStore} (law : p.law) {id : Nat} {r : PullRecord} (found : p.find id = some r)
    (st : RecordState) (capture : Option PullCapture)
    (moves : (if capture.isSome then 1 else 0) + (if r.state = .testing then 1 else 0)
      = (if p.capture.isSome then 1 else 0) + if st = .testing then 1 else 0) :
    ({ p.setState id st with capture := capture } : PullStore).law := by
  refine RecordsLaw.map_state law (fun x => ?_) ?_
  · split
    · exact ⟨st, rfl⟩
    · exact ⟨x.state, rfl⟩
  · have counted := countP_testing_setState law.distinct found st
    have before := law.testing
    dsimp only at moves ⊢
    omega

/-- A pull capture is present exactly while a record is TESTING. -/
theorem PullStore.law.capture_isSome_iff {p : PullStore} (law : p.law) :
    p.capture.isSome = true ↔ ∃ r ∈ p.records, r.state = .testing := by
  have testing := law.testing
  constructor
  · intro present
    rw [if_pos present] at testing
    obtain ⟨r, mem, state⟩ := List.countP_pos_iff.mp (Nat.lt_of_lt_of_eq Nat.one_pos testing.symm)
    exact ⟨r, mem, beq_iff_eq.mp state⟩
  · rintro ⟨r, mem, state⟩
    refine Classical.byContradiction fun absent => ?_
    rw [if_neg absent] at testing
    exact List.countP_eq_zero.mp testing r mem (beq_iff_eq.mpr state)

theorem PullStore.mem_of_find {p : PullStore} {id : Nat} {r : PullRecord} (found : p.find id = some r) : r ∈ p.records :=
  List.mem_of_find?_eq_some found

theorem PullStore.id_of_find {p : PullStore} {id : Nat} {r : PullRecord} (found : p.find id = some r) : r.id = id :=
  beq_iff_eq.mp (List.find?_some found :)

theorem doPstart_storeLaw {s : State} (law : s.storeLaw) (p : PortId) (id : Nat) : (doPstart p id s).storeLaw := by
  unfold doPstart
  split
  · exact State.storeLaw_congr law
  next r found =>
  split
  · exact State.storeLaw_congr law
  next pending =>
  split
  · exact State.storeLaw_congr law
  next idle =>
  split
  · exact State.storeLaw_congr law
  have absent : ¬s.pull.capture.isSome = true := by
    rw [law.pull.capture_isSome_iff]
    rintro ⟨q, mem, testing⟩
    exact List.find?_eq_none.mp idle q mem (beq_iff_eq.mpr testing)
  exact State.storeLaw_of_pull law (PullStore.law_setState law.pull found .testing (some _) (by simp_all)) rfl

theorem State.endPull_pull (s : State) (r : PullRecord) (mode PF : Nat) (result : PullResult) :
    (s.endPull r mode PF result).pull = { s.pull.setState r.id (.done PF mode result) with capture := none } := by
  unfold State.endPull
  dsimp only
  split <;> simp

theorem doPend_storeLaw {s : State} (law : s.storeLaw) (p : PortId) (id mode : Nat) : (doPend p id mode s).storeLaw := by
  unfold doPend
  split
  · exact State.storeLaw_congr law
  next r found =>
  split
  · exact State.storeLaw_congr law
  next testing =>
  split
  · exact State.storeLaw_congr law
  have present := law.pull.capture_isSome_iff.mpr ⟨r, PullStore.mem_of_find found, Decidable.not_not.mp testing⟩
  refine State.storeLaw_of_pull law ?_
  rw [State.respond_pull, State.endPull_pull, PullStore.id_of_find found]
  exact PullStore.law_setState law.pull found _ none (by simp_all)

theorem doPvoid_storeLaw {s : State} (law : s.storeLaw) (p : PortId) (id : Nat) : (doPvoid p id s).storeLaw := by
  unfold doPvoid
  split
  · exact State.storeLaw_congr law
  next r found =>
  split
  · exact State.storeLaw_congr law
  dsimp only
  by_cases testing : r.state = .testing
  · have present := law.pull.capture_isSome_iff.mpr ⟨r, PullStore.mem_of_find found, testing⟩
    simp only [testing, BEq.rfl, if_true]
    exact State.storeLaw_of_pull law (PullStore.law_setState law.pull found .void none (by simp_all)) rfl
  · simp only [beq_eq_false_iff_ne.mpr testing, Bool.false_eq_true, if_false]
    exact State.storeLaw_of_pull law (PullStore.law_setState law.pull found .void s.pull.capture (by simp_all)) rfl

theorem PullStore.law_restart {p : PullStore} (law : p.law) : p.restart.law := by
  refine RecordsLaw.map_state law (fun r => ?_) (List.countP_eq_zero.mpr (List.forall_mem_map.mpr fun r _ => ?_))
  · split
    · exact ⟨.void, rfl⟩
    · exact ⟨r.state, rfl⟩
  · split
    · exact nofun
    · next closed =>
      intro testing
      simp_all [PullRecord.open?]

theorem doRestart_storeLaw {s : State} (law : s.storeLaw) (p : PortId) : (doRestart p s).storeLaw := by
  have cleared : s.discardWork.storeLaw := by
    refine State.storeLaw_of_no_map (PullStore.law_restart ?_) (State.discardMap_map _)
    unfold State.discardMap
    split
    · rw [State.emptyCaptures_pull]
      exact law.pull
    · rw [State.setProgram_pull]
      dsimp only
      rw [State.emptyCaptures_pull]
      exact law.pull
  exact State.storeLaw_congr cleared (by simp [doRestart]) (by simp [doRestart])

theorem withHead_storeLaw {s : State} (law : s.storeLaw) (p : PortId) {f : Head → State → State}
    (keeps : ∀ h, (f h s).storeLaw) : (withHead p f s).storeLaw := by
  unfold withHead
  split
  · exact keeps _
  · exact law

/-- The commands that may change the store or the map. -/
def changesStore : Cmd → Bool
  | .splan | .ptake | .pstart | .pend | .pvoid => true
  | c => changesMap c

theorem carryOut_pull {c : Cmd} (other : changesStore c = false) (p : PortId) (bs : List Byte) (s : State) :
    (carryOut c p bs s).pull = s.pull := by
  cases c <;> simp_all [changesStore, changesMap, carryOut, withHead_pull]

theorem carryOut_storeLaw {s : State} (law : s.storeLaw) (c : Cmd) (p : PortId) (bs : List Byte) :
    (carryOut c p bs s).storeLaw := by
  cases change : changesStore c with
  | false =>
    have map : changesMap c = false := by cases c <;> simp_all [changesStore, changesMap]
    exact State.storeLaw_congr law (carryOut_pull change p bs s) (carryOut_map map p bs s)
  | true =>
    cases c <;> simp only [changesStore, changesMap, reduceCtorEq] at change
    case psel => exact doPsel_storeLaw law ..
    case zone => exact doZone_storeLaw law ..
    case skipu => exact doSkipu_storeLaw law ..
    case maptake => exact doMaptake_storeLaw law ..
    case cancel => exact withHead_storeLaw law p fun _ => doCancel_storeLaw law ..
    case freset => exact withHead_storeLaw law p fun _ => doFreset_storeLaw law ..
    case zrel => exact doZrel_storeLaw law ..
    case restart => exact doRestart_storeLaw law p
    case splan => exact doSplan_storeLaw law ..
    case ptake => exact doPtake_storeLaw law ..
    case pstart => exact doPstart_storeLaw law ..
    case pend => exact doPend_storeLaw law ..
    case pvoid => exact doPvoid_storeLaw law ..

/-! ### Values and marks of the pull capture -/

/-- What a pull capture takes in leaves it present. -/
theorem State.storeLaw_mapCapture {s t : State} (law : s.storeLaw) (f : PullCapture → PullCapture)
    (pull : t.pull = { s.pull with capture := s.pull.capture.map f }) (map : t.map = s.map) : t.storeLaw := by
  refine State.storeLaw_of_pull law ?_ map
  rw [pull, PullStore.law, Option.isSome_map]
  exact law.pull

theorem State.storeLaw_sample {s : State} (law : s.storeLaw) (c : ChanId) (x : Int) : (s.sample c x).storeLaw := by
  unfold State.sample
  dsimp only
  split
  · exact law
  split
  · exact law
  unfold State.deliverValue
  split
  · exact State.storeLaw_congr law
  · exact State.storeLaw_mapCapture law (PullCapture.takeValue · _) rfl rfl

theorem doDataWord_storeLaw {s : State} (law : s.storeLaw) (l : Link) (w : W32) : (doDataWord l w s).storeLaw := by
  have samples (xs : List (ChanId × Int)) {u : State} (law : u.storeLaw) :
      (xs.foldl (fun s x => s.sample x.1 x.2) u).storeLaw := by
    induction xs generalizing u with
    | nil => exact law
    | cons x xs ih => exact ih (State.storeLaw_sample law x.1 x.2)
  exact samples _ (State.storeLaw_congr law)

theorem State.storeLaw_markLink {s : State} (law : s.storeLaw) (l : Link) (window : Window → Window)
    (pull : PullCapture → PullCapture) : (s.markLink l window pull).storeLaw := by
  cases l with
  | slA => exact law
  | slB => exact law
  | slP => exact State.storeLaw_mapCapture law pull rfl rfl

/-- Each taking of a command and each event keeps the law of the Pull Record Store. -/
theorem State.keeps_storeLaw : Keeps State.storeLaw where
  port _ _ _ _ law := law
  screen _ _ law := law
  pending _ _ law := law
  command c p bs _ law := carryOut_storeLaw law c p bs
  group _ _ _ _ law := State.storeLaw_congr law
  arbiter _ law := doArbiterServe_storeLaw law
  fill _ law := doFillServe_storeLaw law
  opens _ _ _ law := State.storeLaw_congr law
  closes h _ _ law := State.storeLaw_closeWindow law h
  holdOn _ law := State.storeLaw_congr law
  holdOff _ law := State.storeLaw_congr law
  rst _ _ := State.storeLaw_of_no_map RecordsLaw.empty rfl
  address _ _ _ law := State.storeLaw_congr law
  data l w _ law := doDataWord_storeLaw law l w
  framing l _ law := State.storeLaw_markLink law l ..
  expiry l _ _ law := State.storeLaw_congr (State.storeLaw_markLink law l ..) (State.postLink_pull ..)
    (State.postLink_map ..)
  rest _ _ law := law

/-- Settles O58: each taking and each event keeps the law of the Pull Record Store. -/
theorem stepKeepsStoreLaw : Obligations.StepKeepsStoreLaw :=
  State.keeps_storeLaw.step

end Sys2Proof.Machine
end

section
/-! SPLAN and PTAKE at their taking (R140, R153), and the export of a record byte by byte (section 11.8). -/

namespace Sys2Proof.Machine

/-! ### SPLAN -/

theorem distinct_eq_true_iff (us : List Nat) : distinct us = true ↔ us.Nodup := by
  induction us with
  | nil => simp [distinct]
  | cons u us ih => simp [distinct, ih]

section Splan

variable {p : PortId} {period limit count : Nat} {units : List Byte} {s : State}

/-- The values of SPLAN in range (R140). -/
def splanOk (limit count : Nat) (units : List Byte) : Prop :=
  1 ≤ limit ∧ limit ≤ 32 ∧ count ≤ 8 ∧ ∀ u ∈ (units.take count).map BitVec.toNat, u ≤ 63

theorem doSplan_of_range (bad : ¬splanOk limit count units) : doSplan p period limit count units s = s.refuse p .range := by
  unfold doSplan
  split
  · rfl
  · next bounds =>
    refine if_pos ?_
    refine Classical.byContradiction fun none => bad ⟨by omega, by omega, by omega, fun u mem => ?_⟩
    refine Classical.byContradiction fun beyond => none ?_
    exact (List.any_eq_true.mpr ⟨u, mem, decide_eq_true (by omega)⟩)

variable (ok : splanOk limit count units)
include ok

/-- With the values in range, only a unit named twice is left to check (R140). -/
theorem doSplan_of_ok :
    doSplan p period limit count units s
      = if !distinct ((units.take count).map BitVec.toNat) then s.refuse p .duplicate
        else { s with pull := { s.pull with
            period := period, limit := limit, units := (units.take count).map BitVec.toNat, counter := 0 } }.respond p .ok 0
          [b8 s.pull.period, b8 s.pull.counter] := by
  obtain ⟨one, most, eight, bound⟩ := ok
  have within : ((units.take count).map BitVec.toNat).any (fun u => decide (63 < u)) = false :=
    List.any_eq_false.mpr fun u mem => by simpa using bound u mem
  unfold doSplan
  rw [if_neg (by omega)]
  dsimp only
  exact if_neg (ne_true_of_eq_false within)

theorem doSplan_of_duplicate (twice : ¬((units.take count).map BitVec.toNat).Nodup) :
    doSplan p period limit count units s = s.refuse p .duplicate := by
  rw [doSplan_of_ok ok, if_pos (by simpa [← distinct_eq_true_iff] using twice)]

theorem doSplan_plans (once : ((units.take count).map BitVec.toNat).Nodup) :
    doSplan p period limit count units s
      = { s with pull := { s.pull with
            period := period, limit := limit, units := (units.take count).map BitVec.toNat, counter := 0 } }.respond p .ok 0
          [b8 s.pull.period, b8 s.pull.counter] := by
  rw [doSplan_of_ok ok, if_neg (by simpa [← distinct_eq_true_iff] using once)]

end Splan

/-! ### PTAKE -/

theorem doPtake_of_range {p : PortId} {k : Nat} {s : State} (beyond : k = 0 ∨ 16 < k) :
    doPtake p k s = s.refuse p .range := if_pos beyond

theorem doPtake_takes {p : PortId} {k : Nat} {s : State} (one : 1 ≤ k) (most : k ≤ 16) :
    doPtake p k s
      = { s with pull := s.pull.without (s.pull.finished k) }.respond p .ok (s.pull.finished k).length
          ((s.pull.finished k).flatMap PullRecord.bytes ++ List.replicate (16 * (k - (s.pull.finished k).length)) 0) :=
  if_neg (by omega)

/-- Settles O45, by the checks of SPLAN and PTAKE in their order and by the state of a record exported. -/
theorem splanAndPtake : Obligations.SplanAndPtake := by
  intro s hears
  refine ⟨fun period limit count units => ?_, fun k beyond => ?_, fun k one most => ?_⟩
  · intro i us ok
    refine ⟨fun bad => ?_, fun fine twice => ?_, fun fine once => ?_⟩
    · exact .of_carryOut rfl rfl hears rfl (doSplan_of_range bad)
    · exact .of_carryOut rfl rfl hears rfl (doSplan_of_duplicate fine twice)
    · refine .of_carryOut rfl rfl hears rfl ((doSplan_plans fine once).trans ?_)
      rw [State.taking_pull]
  · exact .of_carryOut rfl rfl hears rfl (doPtake_of_range beyond)
  · intro finished taken verdict exported
    have taken_eq : s.pull.finished k.toNat = taken := by
      have closed (r : PullRecord) : (!r.open?) = finished r := by
        simp only [finished, PullRecord.open?]
        cases r.state <;> rfl
      simp only [PullStore.finished, closed, taken]
    have exported_eq {r : PullRecord} (mem : r ∈ taken) : r.bytes = exported r := by
      have closed : finished r = true := (List.mem_filter.mp (List.mem_of_mem_take mem)).2
      have code (v : Verdict) : v.code = verdict v := by cases v <;> rfl
      simp only [PullRecord.bytes, exported, code, Nat.mul_comm r.unit]
      simp only [finished] at closed
      cases state : r.state with
      | pending => simp [state] at closed
      | testing => simp [state] at closed
      | done PF mode result => cases result <;> cases r.head <;> rfl
      | void => cases r.head <;> rfl
    refine ⟨?_, fun r => rfl⟩
    refine .of_carryOut rfl rfl hears rfl ((doPtake_takes one most).trans ?_)
    rw [State.taking_pull, taken_eq, List.flatMap_def, List.map_congr_left fun r mem => exported_eq mem, ← List.flatMap_def]
    rfl

end Sys2Proof.Machine
end

section
/-! PSTART, PEND and PVOID at their taking (R148, R150 to R152), and the judgment of a pull (R97). -/

namespace Sys2Proof.Machine

/-! ### PSTART -/

section Pstart

variable {p : PortId} {id : Nat} {s : State}

theorem doPstart_of_unknown (unknown : s.pull.find id = none) :
    doPstart p id s = s.respond p .notFound 0 s.pull.oldestPending := by
  rw [doPstart, unknown]

variable {r : PullRecord} (found : s.pull.find id = some r)
include found

theorem doPstart_of_state (other : r.state ≠ .pending) :
    doPstart p id s = s.respond p .state 15 s.pull.oldestPending := by
  simp only [doPstart, found]
  exact if_pos other

variable (pending : r.state = .pending)
include pending

theorem doPstart_of_busy {q : PullRecord} (busy : s.pull.records.find? (fun q => q.state == .testing) = some q) :
    doPstart p id s = s.respond p .busy 0 (be16 q.id) := by
  simp [doPstart, found, pending, busy]

variable (idle : ∀ q ∈ s.pull.records, q.state ≠ .testing)
include idle

/-- PSTART of a PENDING record with no pull running (R148). -/
theorem doPstart_of_idle :
    doPstart p id s
      = if !(s.chan .pf).enabled then s.refuseState p .disabled
        else
          ({ s with pull := { s.pull.setState id .testing with
              capture := some (.opening !(s.link .slP).present) } }.setChan .pf (s.chan .pf).empty).respond p .ok 0
            (be32 r.serial.toNat ++ [b8 r.unit] ++ be16 r.wire ++ [b8 r.limitSet, flag8 !(s.link .slP).present]) := by
  have none : s.pull.records.find? (fun q => q.state == .testing) = none :=
    List.find?_eq_none.mpr fun q mem testing => idle q mem (beq_iff_eq.mp testing)
  simp only [doPstart, found, pending, none]
  rfl

theorem doPstart_of_disabled (disabled : (s.chan .pf).enabled = false) :
    doPstart p id s = s.refuseState p .disabled := by
  rw [doPstart_of_idle found pending idle, if_pos (by rw [disabled]; rfl)]

theorem doPstart_starts (enabled : (s.chan .pf).enabled = true) :
    doPstart p id s
      = ({ s with pull := { s.pull.setState id .testing with
            capture := some (.opening !(s.link .slP).present) } }.setChan .pf (s.chan .pf).empty).respond p .ok 0
          (be32 r.serial.toNat ++ [b8 r.unit] ++ be16 r.wire ++ [b8 r.limitSet, flag8 !(s.link .slP).present]) := by
  rw [doPstart_of_idle found pending idle, if_neg (by rw [enabled]; exact Bool.false_ne_true)]

end Pstart

/-! ### The judgment of a pull -/

/-- The pull table (R97). -/
theorem judgePull_eq (k : PullCapture) (l : LimitSet) (PF mode : Nat) :
    judgePull k l PF mode
      = if k.n = 0 ∨ k.absence = true ∨ k.framing = true then .unjudged
        else if l.loaded = false ∨ PF < l.pullMin then .failLow
        else if mode = 1 ∨ mode = 5 then .failMode
        else .pass := by
  have lift : isLift mode = true ↔ mode = 1 ∨ mode = 5 := by simp [isLift]
  simp only [judgePull, lift]
  cases l.loaded <;> simp

theorem PullResult.failed_iff (result : PullResult) : result.failed = true ↔ result = .failLow ∨ result = .failMode := by
  simp [PullResult.failed]

/-! ### The pull status of the strip at PULL -/

/-- The outstanding count once a record of the strip has finished (R130). -/
def State.leftOver (s : State) : Nat :=
  ((s.tracker.pull.bind StripRecord.pull).map (fun (k : PullStatus) => k.outstanding - 1)).getD 0

theorem State.outstanding_congr {s t : State} (tracker : s.tracker = t.tracker) : s.outstanding = t.outstanding := by
  rw [State.outstanding, State.outstanding, tracker]

theorem State.outstanding_finishRecord (s : State) (passed failed : Nat) :
    (s.finishRecord passed failed).outstanding = s.leftOver := by
  unfold State.outstanding State.finishRecord State.leftOver
  cases s.tracker.pull with
  | none => rfl
  | some r => cases h : r.pull <;> simp [StripRecord.outstanding, PullStatus.finish, h]

/-! ### PEND -/

/-- A pull judged, but for the reason PULL_FAIL (R150, R151). -/
def State.judgedPull (s : State) (r : PullRecord) (mode PF : Nat) (result : PullResult) : State :=
  let notice := Notice.pullResult r.id result mode PF s.leftOver
  (((({ s with pull := { s.pull.setState r.id (.done PF mode result) with capture := none } }.emptyChan .pf).finishRecord
    (if result = PullResult.pass then 1 else 0)
      (if result = PullResult.failLow ∨ result = PullResult.failMode then 1 else 0)).post .cc notice).post .mh
    notice)

theorem State.endPull_eq (s : State) (r : PullRecord) (mode PF : Nat) (result : PullResult) :
    s.endPull r mode PF result
      = if result = .failLow ∨ result = .failMode then (s.judgedPull r mode PF result).addReason 4 .pullFail
        else s.judgedPull r mode PF result := by
  simp only [State.endPull, State.outstanding_finishRecord, PullResult.failed_iff]
  rfl

theorem State.outstanding_judgedPull (s : State) (r : PullRecord) (mode PF : Nat) (result : PullResult) :
    (s.judgedPull r mode PF result).outstanding = s.leftOver :=
  (State.outstanding_congr ((State.post_tracker ..).trans (State.post_tracker ..))).trans
    (State.outstanding_finishRecord ..)

theorem State.outstanding_endPull (s : State) (r : PullRecord) (mode PF : Nat) (result : PullResult) :
    (s.endPull r mode PF result).outstanding = s.leftOver := by
  rw [State.endPull_eq]
  split
  · exact (State.outstanding_congr (State.addReason_tracker ..)).trans (State.outstanding_judgedPull ..)
  · exact State.outstanding_judgedPull ..

section Pend

variable {p : PortId} {id mode : Nat} {s : State}

theorem doPend_of_unknown (unknown : s.pull.find id = none) : doPend p id mode s = s.refuse p .notFound := by
  rw [doPend, unknown]

variable {r : PullRecord} (found : s.pull.find id = some r)
include found

theorem doPend_of_state (other : r.state ≠ .testing) : doPend p id mode s = s.refuseState p .record := by
  simp only [doPend, found]
  exact if_pos other

variable (testing : r.state = .testing)
include testing

theorem doPend_of_range (beyond : mode = 0 ∨ 6 < mode) : doPend p id mode s = s.refuse p .range := by
  simp only [doPend, found]
  rw [if_neg (Decidable.not_not.mpr testing), if_pos beyond]

theorem doPend_judges (one : 1 ≤ mode) (six : mode ≤ 6) {k : PullCapture} (capture : s.pull.capture = some k) {PF : Nat}
    (force : k.PF (s.chan .pf).metric = PF) {result : PullResult}
    (judged : judgePull k (s.limitSet r.limitSet) PF mode = result) :
    doPend p id mode s
      = (s.endPull r mode PF result).respond p .ok result.code
          (be16 PF ++ be16 k.n ++ [k.flags, b8 s.leftOver]) := by
  simp only [doPend, found, capture, Option.getD_some, force, judged, State.outstanding_endPull]
  rw [if_neg (Decidable.not_not.mpr testing), if_neg (by omega)]

end Pend

/-! ### PVOID -/

section Pvoid

variable {p : PortId} {id : Nat} {s : State}

theorem doPvoid_of_unknown (unknown : s.pull.find id = none) : doPvoid p id s = s.refuse p .notFound := by
  rw [doPvoid, unknown]

variable {r : PullRecord} (found : s.pull.find id = some r)
include found

theorem doPvoid_of_finished (notPending : r.state ≠ .pending) (notTesting : r.state ≠ .testing) :
    doPvoid p id s = s.refuseState p .record := by
  simp [doPvoid, found, PullRecord.open?, notPending, notTesting]

theorem doPvoid_of_pending (pending : r.state = .pending) :
    doPvoid p id s
      = ({ s with pull := s.pull.setState id .void }.finishRecord 0 0).respond p .ok 0
          ([b8 r.unit] ++ be16 r.wire ++ [b8 s.leftOver]) := by
  simp only [doPvoid, found, PullRecord.open?, pending, State.outstanding_finishRecord]
  rfl

theorem doPvoid_of_testing (testing : r.state = .testing) :
    doPvoid p id s
      = (({ s with pull := { s.pull.setState id .void with capture := none } }.emptyChan .pf).finishRecord 0 0).respond p
          .ok 1 ([b8 r.unit] ++ be16 r.wire ++ [b8 s.leftOver]) := by
  simp only [doPvoid, found, PullRecord.open?, testing, State.outstanding_finishRecord]
  rfl

end Pvoid

@[simp] theorem State.taking_leftOver (s : State) (i : Instr) : (s.taking i).leftOver = s.leftOver := by
  rw [State.leftOver, State.leftOver, State.taking_tracker]

/-- Settles O46, by the checks of each command in their order and by the state of the record. -/
theorem pullCommands : Obligations.PullCommands := by
  intro id s hears found oldest become emptied counted left
  have oldest_eq : s.pull.oldestPending = oldest := by
    simp only [oldest, PullStore.oldestPending]
    cases s.pull.records.find? (fun r => r.state == RecordState.pending) <;> rfl
  have taken (i : Instr) {o : Option PullRecord} (h : found = o) : (s.taking i).pull.find id.toNat = o := by
    rw [State.taking_pull]
    exact h
  refine ⟨fun unknown => ⟨?_, fun mode => ?_, ?_⟩, fun r known => ⟨fun other => ?_, fun q pending busy => ?_,
    fun pending idle => ⟨fun disabled => ?_, fun enabled => ?_⟩, fun mode other => ?_, fun mode testing beyond => ?_,
    fun mode k testing one six capture => ?_, fun notPending notTesting => ?_, fun pending => ?_, fun testing => ?_⟩⟩
  · refine .of_carryOut rfl rfl hears rfl ((doPstart_of_unknown (taken _ unknown)).trans ?_)
    rw [State.taking_pull, oldest_eq]
  · exact .of_carryOut rfl rfl hears rfl (doPend_of_unknown (taken _ unknown))
  · exact .of_carryOut rfl rfl hears rfl (doPvoid_of_unknown (taken _ unknown))
  · refine .of_carryOut rfl rfl hears rfl ((doPstart_of_state (taken _ known) other).trans ?_)
    rw [State.taking_pull, oldest_eq]
  · exact .of_carryOut rfl rfl hears rfl (doPstart_of_busy (taken _ known) pending (by rwa [State.taking_pull]))
  · exact .of_refuseState (c := .pstart) rfl rfl hears rfl
      (doPstart_of_disabled (taken _ known) pending (by rwa [State.taking_pull]) (by rwa [State.taking_chan]))
  · refine .of_carryOut rfl rfl hears rfl
      ((doPstart_starts (taken _ known) pending (by rwa [State.taking_pull]) (by rwa [State.taking_chan])).trans ?_)
    rw [State.taking_link]
    rfl
  · exact .of_refuseState (c := .pend) rfl rfl hears rfl (doPend_of_state (taken _ known) other)
  · exact .of_carryOut rfl rfl hears rfl (doPend_of_range (taken _ known) testing beyond)
  · intro PF set result passed failed notice
    have force : k.PF (s.chan .pf).metric = PF := by
      simp only [PF, PullCapture.PF, saturateMetric]
      cases k.vmax <;> rfl
    have judged : judgePull k (s.limitSet r.limitSet) PF mode.toNat = result := judgePull_eq ..
    have id_eq : r.id = id.toNat := PullStore.id_of_find (p := s.pull) known
    have code (x : PullResult) : x.code = match x with | .pass => 0 | .failLow => 1 | .failMode => 2 | .unjudged => 3 := by
      cases x <;> rfl
    refine .of_carryOut rfl rfl hears rfl ((doPend_judges (PF := PF) (result := result) (taken _ known) testing one six
      (by rwa [State.taking_pull]) (by rwa [State.taking_chan]) (by rwa [State.taking_limitSet])).trans ?_)
    rw [State.taking_leftOver, State.endPull_eq, code]
    simp only [State.judgedPull, State.taking_leftOver, notice, id_eq]
    rfl
  · exact .of_refuseState (c := .pvoid) rfl rfl hears rfl (doPvoid_of_finished (taken _ known) notPending notTesting)
  · refine .of_carryOut rfl rfl hears rfl ((doPvoid_of_pending (taken _ known) pending).trans ?_)
    rw [State.taking_leftOver]
    rfl
  · refine .of_carryOut rfl rfl hears rfl ((doPvoid_of_testing (taken _ known) testing).trans ?_)
    rw [State.taking_leftOver]
    rfl

end Sys2Proof.Machine
end

section
/-! Hold Control: the reasons added and removed (R156 to R158), and the hold law (R156, R159): what each command and event does to
the reasons, the enable and the HOLDIN line. -/

namespace Sys2Proof.Machine

/-! ### Sets of reasons -/

theorem Reasons.line_insert {x : Reason} (other : x ≠ .line) (r : Reasons) : (r.insert x).line = r.line := by
  cases x with
  | line => exact absurd rfl other
  | operator => rfl
  | pullFail => rfl
  | restart => rfl

/-- Taking out reasons none of which is in the set leaves it. -/
theorem Reasons.diff_eq_self {r q : Reasons} (apart : r.inter q = .empty) : r.diff q = r := by
  obtain ⟨o, l, f, t⟩ := r
  simp only [Reasons.inter, Reasons.empty, Reasons.mk.injEq, Bool.and_eq_false_imp] at apart
  simp only [Reasons.diff, Reasons.mk.injEq, Bool.and_eq_left_iff_imp, Bool.not_eq_true']
  exact apart

theorem Reasons.inter_eq_right {r q : Reasons} (o : q.operator = true → r.operator = true)
    (l : q.line = true → r.line = true) (f : q.pullFail = true → r.pullFail = true)
    (t : q.restart = true → r.restart = true) : r.inter q = q := by
  simp only [Reasons.inter, Bool.and_eq_right_iff_imp.mpr o, Bool.and_eq_right_iff_imp.mpr l,
    Bool.and_eq_right_iff_imp.mpr f, Bool.and_eq_right_iff_imp.mpr t]

/-! ### Reasons added and removed (R157, R158) -/

section Reasons

variable {s : State} {cause : Nat} {rs : Reasons}

/-- An absent reason joins the set, the enable is cleared, and one HOLD is posted. -/
theorem State.addReason_of_absent (x : Reason) (absent : s.hold.reasons.has x = false) :
    s.addReason cause x
      = { s with hold := { s.hold with reasons := s.hold.reasons.insert x, enable := false } }.postAll
          (.hold cause (s.hold.reasons.insert x) false (.single x) .empty (s.hold.code != 0)) := by
  rw [State.addReason, if_neg (Bool.eq_false_iff.mp absent)]
  rfl

theorem State.addReason_of_present (x : Reason) (present : s.hold.reasons.has x = true) : s.addReason cause x = s :=
  if_pos present

theorem State.addReason_hold (x : Reason) :
    (s.addReason cause x).hold = if s.hold.reasons.has x then s.hold
      else { s.hold with reasons := s.hold.reasons.insert x, enable := false } := by
  unfold State.addReason
  split
  · rfl
  · exact State.postHold_hold ..

/-- Reasons of the set leave it, and one HOLD is posted, if there are any. -/
theorem State.removeReasons_of_subset (within : s.hold.reasons.inter rs = rs) :
    s.removeReasons cause rs = if rs = .empty then s
      else { s with hold := { s.hold with reasons := s.hold.reasons.diff rs } }.postAll
        (.hold cause (s.hold.reasons.diff rs) s.hold.enable .empty rs (s.hold.code != 0)) := by
  rw [State.removeReasons, within]
  rfl

theorem State.removeReasons_hold :
    (s.removeReasons cause rs).hold = { s.hold with reasons := s.hold.reasons.diff rs } := by
  unfold State.removeReasons
  split
  · next apart => rw [Reasons.diff_eq_self apart]
  · exact State.postHold_hold ..

end Reasons

/-! ### The hold law (R156, R159) -/

section Law

variable {s : State} {p : PortId}

/-- The hold law reads Hold Control. -/
theorem State.holdLaw.congr {t : State} (law : s.holdLaw) (same : t.hold = s.hold) : t.holdLaw := by
  unfold State.holdLaw
  rw [same]
  exact law

/-- A reason other than LINE comes with the enable cleared. -/
theorem State.holdLaw.addReason (law : s.holdLaw) {cause : Nat} {x : Reason} (other : x ≠ .line) :
    (s.addReason cause x).holdLaw := by
  unfold State.holdLaw
  rw [State.addReason_hold]
  split
  · exact law
  · exact ⟨nofun, (Reasons.line_insert other _).trans law.2⟩

/-- Reasons other than LINE may leave: with the enable set there was none. -/
theorem State.holdLaw.removeReasons (law : s.holdLaw) {cause : Nat} {rs : Reasons} (other : rs.line = false) :
    (s.removeReasons cause rs).holdLaw := by
  obtain ⟨enabled, line⟩ := law
  unfold State.holdLaw
  rw [State.removeReasons_hold]
  refine ⟨fun on => ?_, ?_⟩
  · rw [enabled on]
    rfl
  · simpa [Reasons.diff, other] using line

theorem State.holdLaw.askEnable (law : s.holdLaw) : s.askEnable.holdLaw := by
  unfold State.askEnable
  split
  · next may =>
    refine .congr (s := { s with hold := { s.hold with enable := true } }) ?_ (State.postHold_hold ..)
    exact ⟨fun _ => may.1, law.2⟩
  · exact law

/-- The rise of HOLDIN brings the reason LINE (R159). -/
theorem State.holdLaw.holdinActive (law : s.holdLaw) : ((s.setHoldin true).addReason 2 .line).holdLaw := by
  unfold State.holdLaw
  rw [State.addReason_hold]
  split
  · next present => exact ⟨law.1, present⟩
  · exact ⟨nofun, rfl⟩

/-- The fall of HOLDIN takes the reason LINE away (R159). -/
theorem State.holdLaw.holdinInactive (law : s.holdLaw) :
    ((s.setHoldin false).removeReasons 3 (.single .line)).holdLaw := by
  unfold State.holdLaw
  rw [State.removeReasons_hold]
  refine ⟨fun on => ?_, Bool.and_false _⟩
  have none : s.hold.reasons = .empty := law.1 on
  exact congrArg (·.diff (.single .line)) none

/-- The reasons that RELEASE may clear leave out LINE: while it is in the set, HOLDIN is active (R162). -/
theorem Hold.line_clearable {k : Hold} (line : k.reasons.line = k.holdin) (named : Reasons) (code : W16) :
    (k.clearable named code).line = false := by
  simp [Hold.clearable, line, Bool.and_assoc]

theorem doRelease_holdLaw (law : s.holdLaw) {mask : Nat} {code : W16} : (doRelease p mask code s).holdLaw := by
  unfold doRelease
  split
  · exact law.congr (State.refuse_hold ..)
  · exact .congr (law.removeReasons (Hold.line_clearable law.2 _ _)) (State.respond_hold ..)

theorem doHold_holdLaw (law : s.holdLaw) : (doHold p s).holdLaw :=
  (law.addReason (by decide)).congr (State.respond_hold ..)

theorem doSetcode_holdLaw (law : s.holdLaw) {old new : W16} : (doSetcode p old new s).holdLaw := by
  unfold doSetcode
  split
  · exact law.congr (State.refuseState_hold ..)
  split
  · exact law.congr (State.refuse_hold ..)
  · exact law

theorem doRun_holdLaw (law : s.holdLaw) {h : Head} {count traversal fixedUnit order delivery depth : Nat} :
    (doRun p count traversal fixedUnit order delivery depth h s).holdLaw := by
  unfold doRun
  dsimp only
  split
  · exact law.congr (State.refuse_hold ..)
  split
  · exact law.congr (State.refuseState_hold ..)
  · refine State.holdLaw.congr (s := (s.setFeed h _).askEnable) (.askEnable ?_) rfl
    exact law

theorem State.holdLaw.endPull (law : s.holdLaw) {r : PullRecord} {mode PF : Nat} {result : PullResult} :
    (s.endPull r mode PF result).holdLaw := by
  unfold State.endPull
  dsimp only
  split
  · refine .addReason ?_ (by decide)
    exact law
  · exact law

theorem doPend_holdLaw (law : s.holdLaw) {id mode : Nat} : (doPend p id mode s).holdLaw := by
  unfold doPend
  split
  · exact law.congr (State.refuse_hold ..)
  split
  · exact law.congr (State.refuseState_hold ..)
  split
  · exact law.congr (State.refuse_hold ..)
  · exact law.endPull.congr (State.respond_hold ..)

theorem doRestart_holdLaw (law : s.holdLaw) : (doRestart p s).holdLaw := by
  refine .congr (.addReason ?_ (by decide)) (State.respond_hold ..)
  exact law.congr (State.discardWork_hold s)

theorem withHead_holdLaw (law : s.holdLaw) {f : Head → State → State} (keeps : ∀ h, (f h s).holdLaw) :
    (withHead p f s).holdLaw := by
  unfold withHead
  split
  · exact keeps _
  · exact law

/-- The commands that may change Hold Control. -/
def changesHold : Cmd → Bool
  | .run | .hold | .release | .setcode | .pend | .restart => true
  | _ => false

/-- Every other command leaves Hold Control. -/
theorem carryOut_hold {c : Cmd} (h : changesHold c = false) (p : PortId) (bs : List Byte) (s : State) :
    (carryOut c p bs s).hold = s.hold := by
  cases c <;> simp_all [changesHold, carryOut, withHead_hold]

theorem carryOut_holdLaw (law : s.holdLaw) (c : Cmd) (bs : List Byte) : (carryOut c p bs s).holdLaw := by
  cases changes : changesHold c with
  | false => exact law.congr (carryOut_hold changes p bs s)
  | true =>
    cases c <;> simp only [changesHold, reduceCtorEq] at changes
    case run => exact withHead_holdLaw law fun _ => doRun_holdLaw law
    case hold => exact doHold_holdLaw law
    case release => exact doRelease_holdLaw law
    case setcode => exact doSetcode_holdLaw law
    case pend => exact doPend_holdLaw law
    case restart => exact doRestart_holdLaw law

end Law

/-- Each taking of a command and each event keeps the hold law. -/
theorem State.keeps_holdLaw : Keeps State.holdLaw where
  port _ _ _ _ law := law
  screen _ _ law := law
  pending _ _ law := law
  command c _ bs _ law := carryOut_holdLaw law c bs
  group _ _ _ _ law := law.congr (State.takePwireGroup_hold ..)
  arbiter _ law := law.congr (doArbiterServe_hold _)
  fill _ law := law.congr (doFillServe_hold _)
  opens _ _ _ law := law.congr (State.openWindow_hold ..)
  closes _ _ _ law := law.congr (State.closeWindow_hold ..)
  holdOn _ law := law.holdinActive
  holdOff _ law := law.holdinInactive
  rst _ _ := ⟨nofun, rfl⟩
  address _ _ _ law := law.congr (State.goodWord_hold ..)
  data _ _ _ law := law.congr (doDataWord_hold ..)
  framing _ _ law := law.congr (doFramingError_hold ..)
  expiry _ _ _ law := law.congr (doAbsenceExpiry_hold ..)
  rest _ _ law := law

end Sys2Proof.Machine
end

section
/-! The queue law (R193): every notice is placed by one operation, which keeps a queue within its bound; what else a command or
event does to a queue is a removal from it (R194, R195). -/

namespace Sys2Proof.Machine

/-! ### The operations on the ports -/

/-- The queue law reads the ports. -/
theorem State.queueLaw.congr {s t : State} (law : s.queueLaw) (same : t.ports = s.ports) : t.queueLaw := by
  intro p
  rw [State.port, same]
  exact law p

theorem State.queueLaw.setPort {s : State} (law : s.queueLaw) {p : PortId} {x : Port}
    (fits : x.queue.length ≤ Config.queueCapacity) : (s.setPort p x).queueLaw := by
  intro q
  rw [State.port_setPort]
  split
  · exact fits
  · exact law q

theorem State.port_mapPorts (s : State) (f : Port → Port) (p : PortId) :
    ({ s with ports := s.ports.map f } : State).port p = f (s.port p) := by
  cases p <;> rfl

/-- A queue below its bound takes the notice, and a full one stays (R193). -/
theorem Port.length_enqueue_le {q : Port} (fits : q.queue.length ≤ Config.queueCapacity) (n : Notice) :
    (q.enqueue n).queue.length ≤ Config.queueCapacity := by
  unfold Port.enqueue
  split
  · next room =>
    rw [List.length_append]
    exact room
  · exact fits

variable {s : State} {p : PortId} {n : Notice} {h : Head}

theorem State.queueLaw.post (law : s.queueLaw) : (s.post p n).queueLaw :=
  law.setPort (Port.length_enqueue_le (law p) n)

theorem State.queueLaw.mapPorts (law : s.queueLaw) {f : Port → Port}
    (keeps : ∀ q : Port, q.queue.length ≤ Config.queueCapacity → (f q).queue.length ≤ Config.queueCapacity) :
    ({ s with ports := s.ports.map f } : State).queueLaw := by
  intro q
  rw [State.port_mapPorts]
  exact keeps _ (law q)

theorem State.queueLaw.postAll (law : s.queueLaw) : (s.postAll n).queueLaw :=
  law.mapPorts fun _ fits => Port.length_enqueue_le fits n

theorem State.queueLaw.respond (law : s.queueLaw) {r : CmdResult} {d : Nat} {data : List Byte} :
    (s.respond p r d data).queueLaw :=
  law.setPort (law p)

theorem State.queueLaw.addReason (law : s.queueLaw) {cause : Nat} {r : Reason} : (s.addReason cause r).queueLaw := by
  unfold State.addReason
  split
  · exact law
  · exact .postAll law

theorem State.queueLaw.removeReasons (law : s.queueLaw) {cause : Nat} {rs : Reasons} :
    (s.removeReasons cause rs).queueLaw := by
  unfold State.removeReasons
  split
  · exact law
  · exact .postAll law

theorem State.queueLaw.askEnable (law : s.queueLaw) : s.askEnable.queueLaw := by
  unfold State.askEnable
  split
  · exact .postAll law
  · exact law

theorem State.queueLaw.trigger (law : s.queueLaw) : s.trigger.queueLaw := law

theorem State.queueLaw.checkComplete (law : s.queueLaw) : s.checkComplete.queueLaw := by
  unfold State.checkComplete
  split
  · exact law
  split
  · exact .postAll law
  · exact law

theorem State.queueLaw.checkClamp (law : s.queueLaw) : s.checkClamp.queueLaw := by
  unfold State.checkClamp
  split
  · exact .post law
  · exact law

theorem State.queueLaw.cancelTicket (law : s.queueLaw) {why : StrayReason} {t : Ticket} :
    (s.cancelTicket h why t).queueLaw :=
  .checkClamp (.checkComplete law)

theorem State.queueLaw.cancelAll (law : s.queueLaw) {why : StrayReason} (ts : List Ticket) :
    (ts.foldl (fun s t => s.cancelTicket h why t) s).queueLaw := by
  induction ts generalizing s with
  | nil => exact law
  | cons t ts ih => exact ih law.cancelTicket

theorem State.queueLaw.buildMap (law : s.queueLaw) {slot : Nat} {prog : Program} {strip : StripRecord} :
    (s.buildMap slot prog strip).queueLaw := by
  refine .trigger (.congr (.checkComplete ?_) rfl)
  exact law

theorem State.queueLaw.releaseZone (law : s.queueLaw) {r : StripRecord} {m : StripMap} :
    (s.releaseZone r m).queueLaw := by
  unfold State.releaseZone
  dsimp only
  split
  · exact .congr (.post law) (State.discardMap_ports _)
  · exact law.congr (State.discardMap_ports _)

theorem State.queueLaw.stow (law : s.queueLaw) {r : StripRecord} {t : OutTable} {slot : Nat} :
    (s.stow r t slot).queueLaw := by
  unfold State.stow
  dsimp only
  split
  · exact .post (.post law)
  · exact law

theorem State.queueLaw.endPull (law : s.queueLaw) {r : PullRecord} {mode PF : Nat} {result : PullResult} :
    (s.endPull r mode PF result).queueLaw := by
  unfold State.endPull
  dsimp only
  split
  · refine .addReason (.post (.post ?_))
    exact law
  · refine .post (.post ?_)
    exact law

/-! ### Serves -/

theorem State.queueLaw.postRunEnd (law : s.queueLaw) {ended : Bool} : (s.postRunEnd h ended).queueLaw := by
  unfold State.postRunEnd
  split
  · exact law.post
  · exact law

theorem State.queueLaw.loadResponse (law : s.queueLaw) {r : CmdResult} {d : Nat} {data : List Byte} :
    (s.loadResponse p r d data).queueLaw := by
  unfold State.loadResponse
  split
  · exact law.respond
  · exact law

theorem State.queueLaw.issueTo (law : s.queueLaw) {t : Ticket} : (s.issueTo h t).queueLaw :=
  law.congr (State.issueTo_ports ..)

theorem serveNext_queueLaw (law : s.queueLaw) : (serveNext h s).queueLaw := by
  unfold serveNext
  split
  · exact law.loadResponse
  split
  · exact law.issueTo.postRunEnd.loadResponse
  · exact law.loadResponse
  · exact law

theorem serveClaim_queueLaw (law : s.queueLaw) {u w : Nat} : (serveClaim h u w s).queueLaw := by
  unfold serveClaim
  split
  · exact law.loadResponse
  · exact .loadResponse (law.congr (State.grantTicket_ports ..))

theorem serveFill_queueLaw (law : s.queueLaw) : (serveFill h s).queueLaw := by
  unfold serveFill
  split
  · exact law.issueTo.post.postRunEnd
  · exact law

theorem doArbiterServe_queueLaw (law : s.queueLaw) : (doArbiterServe s).queueLaw := by
  unfold doArbiterServe
  split
  · exact law
  split
  · exact serveNext_queueLaw (law.congr (State.dropRequest_ports ..))
  · exact serveClaim_queueLaw (law.congr (State.dropRequest_ports ..))
  · exact law

theorem doFillServe_queueLaw (law : s.queueLaw) : (doFillServe s).queueLaw := by
  unfold doFillServe
  split
  · exact law
  split
  · exact law
  · exact serveFill_queueLaw law

/-! ### Commands that post a notice or take one -/

theorem doStat_queueLaw (law : s.queueLaw) : (doStat p s).queueLaw := by
  refine .respond (law.setPort ?_)
  exact law p

/-- NOTE removes from the queue (R194). -/
theorem doNote_queueLaw (law : s.queueLaw) {k : Nat} : (doNote p k s).queueLaw := by
  unfold doNote
  split
  · exact .respond law
  · refine .respond (law.setPort ?_)
    exact Nat.le_trans (List.drop_sublist ..).length_le (law p)

theorem doRun_queueLaw (law : s.queueLaw) {count traversal fixedUnit order delivery depth : Nat} :
    (doRun p count traversal fixedUnit order delivery depth h s).queueLaw := by
  unfold doRun
  dsimp only
  split
  · exact .respond law
  split
  · exact .respond law
  · refine .respond (.trigger (.askEnable ?_))
    exact law

theorem doCancel_queueLaw (law : s.queueLaw) {k : Nat} : (doCancel p k h s).queueLaw := by
  unfold doCancel
  split
  · exact .respond law
  · exact .respond (.trigger law.cancelTicket)

theorem doFreset_queueLaw (law : s.queueLaw) : (doFreset p h s).queueLaw := by
  unfold doFreset
  dsimp only
  split
  · refine .respond ?_
    exact law.cancelAll _
  · refine .respond (.trigger ?_)
    exact law.cancelAll _

theorem doPsel_queueLaw (law : s.queueLaw) {v : Nat} : (doPsel p v s).queueLaw := by
  unfold doPsel
  split
  · exact .respond law
  split
  · exact .respond law
  split
  · exact .respond law
  split
  · exact .respond law
  dsimp only
  split
  · exact .respond law
  · refine .respond (.buildMap ?_)
    exact law

theorem doSkipu_queueLaw (law : s.queueLaw) {u : Nat} : (doSkipu p u s).queueLaw := by
  unfold doSkipu
  split
  · exact .respond law
  split
  · exact .respond law
  dsimp only
  split
  · refine .respond (.trigger (.checkComplete ?_))
    exact law
  · refine .respond (.checkComplete ?_)
    exact law

theorem doMagul_queueLaw (law : s.queueLaw) {side : Nat} : (doMagul p side s).queueLaw := by
  unfold doMagul
  split
  · exact .respond law
  split
  · split
    · exact .respond law
    · exact .respond law
  · split
    · exact .respond law
    · exact .respond (.post law)

theorem doZone_queueLaw (law : s.queueLaw) {mask : Vector Byte 8} : (doZone p mask s).queueLaw := by
  unfold doZone
  split
  · exact .respond law
  split
  · exact .respond law
  dsimp only
  split
  · refine .respond (.buildMap ?_)
    exact law
  · exact .respond (.post law)

theorem doZrel_queueLaw (law : s.queueLaw) : (doZrel p s).queueLaw := by
  unfold doZrel
  split
  · exact .respond law
  · exact .respond law.releaseZone

theorem doStow_queueLaw (law : s.queueLaw) {slot : Nat} : (doStow p slot s).queueLaw := by
  unfold doStow
  split
  · exact .respond law
  split
  · exact .respond law
  split
  · exact .respond law
  split
  · exact .respond law
  split
  · exact .respond law
  · exact .respond law.stow

theorem doPend_queueLaw (law : s.queueLaw) {id mode : Nat} : (doPend p id mode s).queueLaw := by
  unfold doPend
  split
  · exact .respond law
  split
  · exact .respond law
  split
  · exact .respond law
  · exact .respond law.endPull

theorem doHold_queueLaw (law : s.queueLaw) : (doHold p s).queueLaw := law.addReason.respond

theorem doRelease_queueLaw (law : s.queueLaw) {mask : Nat} {code : W16} : (doRelease p mask code s).queueLaw := by
  unfold doRelease
  split
  · exact .respond law
  · exact law.removeReasons.respond

theorem Port.queue_cutText (q : Port) (i : Nat) : (q.cutText i).queue = q.queue := by
  unfold Port.cutText
  split
  · split <;> rfl
  · rfl

theorem doRgdel_queueLaw (law : s.queueLaw) {i : Nat} : (doRgdel p i s).queueLaw := by
  unfold doRgdel
  split
  · exact .respond law
  split
  · exact .respond law
  · have cut : ({ s with ports := s.ports.map fun q => q.cutText i } : State).queueLaw :=
      law.mapPorts fun q fits => (q.queue_cutText i).symm ▸ fits
    exact .respond cut

/-- RESTART leaves one notice in each queue, to which the reason it adds joins a second (R167, R195). -/
theorem doRestart_queueLaw (law : s.queueLaw) : (doRestart p s).queueLaw := by
  have discarded : s.discardWork.queueLaw := law.congr (State.discardWork_ports s)
  have emptied : ({ s.discardWork with ports := s.discardWork.ports.map Port.restart } : State).queueLaw :=
    discarded.mapPorts fun _ _ => Nat.le_add_left 1 15
  exact emptied.addReason.respond

/-! ### Commands that post nothing -/

theorem State.queueLaw.waitFor (law : s.queueLaw) {r : Request} : (s.waitFor p h r).queueLaw :=
  law.setPort (law p)

theorem doNext_queueLaw (law : s.queueLaw) : (doNext p h s).queueLaw := by
  unfold doNext
  split
  · exact .respond law
  split
  · exact .respond law
  · exact law.waitFor

theorem doClaim_queueLaw (law : s.queueLaw) {u w : Nat} : (doClaim p u w h s).queueLaw := by
  unfold doClaim
  split
  · exact .respond law
  · exact law.waitFor

theorem doArm_queueLaw (law : s.queueLaw) {k : Nat} : (doArm p k h s).queueLaw := by
  unfold doArm
  split
  · exact .respond law
  split
  · exact .respond law
  split
  · exact .respond law
  · exact .respond law

theorem doDisarm_queueLaw (law : s.queueLaw) : (doDisarm p h s).queueLaw := by
  unfold doDisarm
  split
  · exact .respond law
  · exact .respond law

theorem doClrstop_queueLaw (law : s.queueLaw) : (doClrstop p h s).queueLaw := by
  unfold doClrstop
  dsimp only
  split
  · exact .respond law
  · exact .respond law

theorem doRgdef_queueLaw (law : s.queueLaw) {i owner kind left top width height : Nat} {attr : Byte} :
    (doRgdef p i owner kind left top width height attr s).queueLaw := by
  have defined {r : Region} : (s.defineRegion i r).queueLaw := law.congr (State.defineRegion_ports ..)
  unfold doRgdef
  dsimp only
  split
  · exact .respond law
  split
  · exact .respond law
  split
  · exact .respond law
  split
  · exact .respond law
  split
  · exact .respond law
  split
  · exact .respond law
  · exact .respond defined

/-- The commands of CC and MH each branch of which is a response, from a state whose ports are those at the taking. -/
def answersOnly : Cmd → Bool
  | .pload | .limset | .pfree | .maprd | .maptake | .guard | .chcfg | .splan | .ptake | .setcode | .magld | .mgrd | .feed
  | .clamp | .cldone | .pstart | .pvoid => true
  | _ => false

theorem carryOut_queueLaw_of_answersOnly (law : s.queueLaw) {c : Cmd} (only : answersOnly c = true) (bs : List Byte) :
    (carryOut c p bs s).queueLaw := by
  cases c <;> simp only [answersOnly, reduceCtorEq] at only
  all_goals
    simp only [carryOut, doPload, doLimset, doPfree, doMaprd, doMaptake, doGuard, doChcfg, doSplan, doPtake, doSetcode,
      doMagld, doMgrd, doFeed, doClamp, doCldone, doPstart, doPvoid]
    repeat' split
    all_goals exact .respond law

/-! ### Every command -/

theorem withHead_queueLaw (law : s.queueLaw) {f : Head → State → State} (keeps : ∀ h, (f h s).queueLaw) :
    (withHead p f s).queueLaw := by
  unfold withHead
  split
  · exact keeps _
  · exact law

theorem carryOut_queueLaw (law : s.queueLaw) (c : Cmd) (bs : List Byte) : (carryOut c p bs s).queueLaw := by
  cases only : answersOnly c with
  | true => exact carryOut_queueLaw_of_answersOnly law only bs
  | false =>
    cases c <;> simp only [answersOnly, reduceCtorEq] at only
    case stat => exact doStat_queueLaw law
    case note => exact doNote_queueLaw law
    case run => exact withHead_queueLaw law fun _ => doRun_queueLaw law
    case halt => exact withHead_queueLaw law fun _ => .respond law
    case next => exact withHead_queueLaw law fun _ => doNext_queueLaw law
    case claim => exact withHead_queueLaw law fun _ => doClaim_queueLaw law
    case cancel => exact withHead_queueLaw law fun _ => doCancel_queueLaw law
    case freset => exact withHead_queueLaw law fun _ => doFreset_queueLaw law
    case arm => exact withHead_queueLaw law fun _ => doArm_queueLaw law
    case disarm => exact withHead_queueLaw law fun _ => doDisarm_queueLaw law
    case clrstop => exact withHead_queueLaw law fun _ => doClrstop_queueLaw law
    case hstat => exact withHead_queueLaw law fun _ => .respond law
    case psel => exact doPsel_queueLaw law
    case skipu => exact doSkipu_queueLaw law
    case hold => exact doHold_queueLaw law
    case release => exact doRelease_queueLaw law
    case rgdef => exact doRgdef_queueLaw law
    case rgdel => exact doRgdel_queueLaw law
    case restart => exact doRestart_queueLaw law
    case magul => exact doMagul_queueLaw law
    case zone => exact doZone_queueLaw law
    case zrel => exact doZrel_queueLaw law
    case stow => exact doStow_queueLaw law
    case pend => exact doPend_queueLaw law
    case wtxt => exact law
    case pwire => exact law

/-! ### Events -/

theorem State.queueLaw.takePwireGroup (law : s.queueLaw) {slot : Nat} {bytes : List Byte} :
    (s.takePwireGroup p slot bytes).queueLaw := by
  unfold State.takePwireGroup
  dsimp only
  split
  · exact law.setPort (law p)
  split
  · exact law.setPort (law p)
  split
  · exact law.setPort (law p)
  · exact law.setPort (law p)

theorem State.queueLaw.reportVerdict (law : s.queueLaw) {t : Ticket} {ph : Phase} {r : BondResult} {longZ longUS : Bool} :
    (s.reportVerdict h t ph r longZ longUS).queueLaw := by
  unfold State.reportVerdict
  split
  · refine .post (.post ?_)
    exact law
  · exact law.post

theorem State.queueLaw.closeBound (law : s.queueLaw) {w : Window} {t : Ticket} {ph : Phase} :
    (s.closeBound h w t ph).queueLaw := by
  have closed {r : BondResult} {x y : Bool} {c : BondCapture} :
      (((s.commit h t ph r).setCapture h c).reportVerdict h t ph r x y).checkComplete.checkClamp.queueLaw := by
    refine .checkClamp (.checkComplete (.reportVerdict ?_))
    exact law.congr (State.commit_ports ..)
  cases ph with
  | ball => exact closed
  | stitch => exact closed.trigger

theorem State.queueLaw.closeWindow (law : s.queueLaw) : (s.closeWindow h).queueLaw := by
  unfold State.closeWindow
  dsimp only
  split
  · exact law
  split
  · refine .closeBound ?_
    exact law
  · refine .post ?_
    exact law
  · exact law

theorem State.queueLaw.postLink (law : s.queueLaw) {l : Link} : (s.postLink l n).queueLaw := law.post.post

theorem State.queueLaw.goodWord (law : s.queueLaw) {l : Link} {interpret : Receiver → Receiver} :
    (s.goodWord l interpret).queueLaw := by
  unfold State.goodWord
  dsimp only
  split
  · exact law
  · refine .postLink ?_
    exact law

theorem State.queueLaw.detectTouch (law : s.queueLaw) {c : ChanId} {before : Channel} {v : Int} :
    (s.detectTouch c h before v).queueLaw := by
  unfold State.detectTouch
  dsimp only
  split
  · refine .post (.post ?_)
    exact law
  · exact law

theorem State.queueLaw.deliverValue (law : s.queueLaw) {c : ChanId} {before : Channel} {v : Int} :
    (s.deliverValue c before v).queueLaw := by
  unfold State.deliverValue
  split
  · exact law.detectTouch
  · exact law

theorem State.queueLaw.sample (law : s.queueLaw) {c : ChanId} {x : Int} : (s.sample c x).queueLaw := by
  unfold State.sample
  dsimp only
  split
  · exact law
  split
  · exact law
  · refine .deliverValue ?_
    exact law

theorem State.queueLaw.samples (law : s.queueLaw) (xs : List (ChanId × Int)) :
    (xs.foldl (fun s x => s.sample x.1 x.2) s).queueLaw := by
  induction xs generalizing s with
  | nil => exact law
  | cons x xs ih => exact ih law.sample

theorem doAbsenceExpiry_queueLaw (law : s.queueLaw) {l : Link} : (doAbsenceExpiry l s).queueLaw := by
  refine .postLink ?_
  exact law.congr (State.markLink_ports ..)

/-- Each taking of a command and each event keeps the queue law. -/
theorem State.keeps_queueLaw : Keeps State.queueLaw where
  port _ p _ same law := law.setPort (same ▸ law p)
  screen _ _ law := law
  pending _ _ law := law
  command c _ bs _ law := carryOut_queueLaw law c bs
  group _ _ _ _ law := law.takePwireGroup
  arbiter _ law := doArbiterServe_queueLaw law
  fill _ law := doFillServe_queueLaw law
  opens _ _ _ law := law.congr (State.openWindow_ports ..)
  closes _ _ _ law := law.closeWindow
  holdOn _ law := State.queueLaw.addReason (s := State.setHoldin _ true) law
  holdOff _ law := State.queueLaw.removeReasons (s := State.setHoldin _ false) law
  rst _ _ p := by cases p <;> exact Nat.zero_le _
  address _ _ _ law := law.goodWord
  data _ _ _ law := law.goodWord.samples _
  framing _ _ law := law.congr (doFramingError_ports ..)
  expiry _ _ _ law := doAbsenceExpiry_queueLaw law
  rest _ _ law := law

/-- Settles O53: each taking and each event keeps either law. -/
theorem stepKeepsHoldAndQueueLaws : Obligations.StepKeepsHoldAndQueueLaws := fun s t e =>
  ⟨fun law => State.keeps_holdLaw.step s t law e, fun law => State.keeps_queueLaw.step s t law e⟩

end Sys2Proof.Machine
end

section
/-! The commands of Hold Control at their taking: HOLD, RELEASE and SETCODE (R160, R162, R164), and the statements about them and
about the HOLDIN line (R159). -/

namespace Sys2Proof.Machine

/-! ### HOLD -/

section Hold

variable {p : PortId} {s : State}

theorem doHold_of_absent (absent : s.hold.reasons.operator = false) :
    doHold p s = (s.addReason 1 .operator).respond p .ok 1 [b8 (s.hold.reasons.insert .operator).code, 0] := by
  have added := (State.addReason_hold (s := s) (cause := 1) .operator).trans (if_neg (Bool.eq_false_iff.mp absent))
  simp only [doHold, absent, added]
  rfl

theorem doHold_of_present (present : s.hold.reasons.operator = true) :
    doHold p s = s.respond p .ok 0 s.hold.bytes := by
  simp only [doHold, State.addReason_of_present .operator present, present, if_true]

end Hold

/-! ### RELEASE -/

section Release

variable {p : PortId} {mask : Nat} {code : W16} {s : State}

theorem doRelease_of_bad_mask (big : 15 < mask) : doRelease p mask code s = s.refuse p .range := if_pos big

theorem doRelease_releases (fits : mask ≤ 15) :
    doRelease p mask code s =
      let cleared := s.hold.clearable (.ofMask mask) code
      let answer := releaseAnswer (.ofMask mask) s.hold.reasons cleared
      (s.removeReasons 5 cleared).respond p answer.1 answer.2
        [b8 cleared.code, b8 (s.hold.reasons.diff cleared).code, flag8 s.hold.enable] := by
  rw [doRelease, if_neg (Nat.not_lt.mpr fits)]
  simp only [State.removeReasons_hold]
  rfl

/-- Only reasons that are in the set may be cleared (R162). -/
theorem Hold.inter_clearable (k : Hold) (named : Reasons) (code : W16) :
    k.reasons.inter (k.clearable named code) = k.clearable named code := by
  apply Reasons.inter_eq_right <;> simp +contextual [Hold.clearable]

/-- What RELEASE answers, by the code that does not match and by the line that is still active (R162). -/
theorem releaseAnswer_clearable (k : Hold) (named : Reasons) (code : W16) :
    releaseAnswer named k.reasons (k.clearable named code)
      = let codeKept := named.pullFail && k.reasons.pullFail && !(k.code == 0 || code == k.code)
        let lineKept := named.line && k.reasons.line && k.holdin
        (if codeKept then .code else if lineKept then .state else .ok,
          if codeKept then 0 else if lineKept then 17 else 0) := by
  have kept (a b : Bool) : (a && !(a && b)) = (a && !b) := by cases a <;> rfl
  simp only [releaseAnswer, Hold.clearable, kept, Bool.not_not]
  split
  · rfl
  split
  · rfl
  · rfl

end Release

/-! ### The HOLDIN line -/

theorem execHoldinActive_of_active {s : State} (active : s.hold.holdin = true) : exec .holdinActive s = .next s := by
  simp only [exec, execHoldinActive, active, if_true, State.finish_same]

theorem execHoldinInactive_of_inactive {s : State} (inactive : s.hold.holdin = false) :
    exec .holdinInactive s = .next s := by
  simp only [exec, execHoldinInactive, inactive, Bool.false_eq_true, if_false, State.finish_same]

theorem execHoldinActive_of_inactive {s : State} (inactive : s.hold.holdin = false) :
    exec .holdinActive s = .next (s.finish ((s.setHoldin true).addReason 2 .line)) := by
  simp only [exec, execHoldinActive, inactive, Bool.false_eq_true, if_false]

theorem execHoldinInactive_of_active {s : State} (active : s.hold.holdin = true) :
    exec .holdinInactive s = .next (s.finish ((s.setHoldin false).removeReasons 3 (.single .line))) := by
  simp only [exec, execHoldinInactive, active, if_true]

theorem Reasons.inter_single_line {r : Reasons} (present : r.line = true) : r.inter (.single .line) = .single .line := by
  apply Reasons.inter_eq_right
  · exact nofun
  · exact fun _ => present
  · exact nofun
  · exact nofun

theorem Reasons.diff_single_line (r : Reasons) : r.diff (.single .line) = { r with line := false } := by
  simp [Reasons.diff, Reasons.single, Reasons.insert, Reasons.empty]

/-- Settles O47: HOLD and the additions by the presence of the reason, RELEASE by its mask and by what it clears, and the HOLDIN
line by its level. -/
theorem holdAndRelease : Obligations.HoldAndRelease := by
  intro s r stored hold
  have held (i : Instr) : (s.taking i).hold = s.hold := State.taking_hold s i
  refine ⟨fun hears absent => ?_, fun hears present => ?_, fun mask code hears big => ?_, fun mask code hears fits => ?_,
    fun inactive absent => ?_, fun active present => ?_, execHoldinActive_of_active, execHoldinInactive_of_inactive,
    State.addReason_of_absent .pullFail, State.addReason_of_present .pullFail, State.addReason_of_absent .restart,
    State.addReason_of_present .restart⟩
  · refine .of_carryOut rfl rfl hears rfl ((doHold_of_absent (by rwa [held])).trans ?_)
    rw [State.addReason_of_absent .operator (by rwa [held]), held]
    rfl
  · refine .of_carryOut rfl rfl hears rfl ((doHold_of_present (by rwa [held])).trans ?_)
    rw [held]
    rfl
  · exact .of_carryOut rfl rfl hears rfl (doRelease_of_bad_mask big)
  · intro matches' cleared rest codeKept lineKept
    refine .of_carryOut rfl rfl hears rfl ((doRelease_releases fits).trans ?_)
    have answer := releaseAnswer_clearable s.hold (.ofMask mask.toNat) code
    have within := s.hold.inter_clearable (.ofMask mask.toNat) code
    dsimp only
    rw [held, answer, State.removeReasons_of_subset (by rwa [held]), held]
    rfl
  · rw [execHoldinActive_of_inactive inactive, State.addReason_of_absent (s := s.setHoldin true) .line absent]
    rfl
  · rw [execHoldinInactive_of_active active,
      State.removeReasons_of_subset (s := s.setHoldin false) (Reasons.inter_single_line present),
      if_neg (by decide), Reasons.diff_single_line]
    rfl

/-! ### SETCODE -/

section Setcode

variable {p : PortId} {old new : W16} {s : State}

theorem doSetcode_of_pullFail (stands : s.hold.reasons.pullFail = true) :
    doSetcode p old new s = s.refuseState p .pullFail := if_pos stands

theorem doSetcode_of_other_code (clear : s.hold.reasons.pullFail = false) (other : old ≠ s.hold.code) :
    doSetcode p old new s = s.refuse p .code := by
  rw [doSetcode, if_neg (Bool.eq_false_iff.mp clear), if_pos other]

theorem doSetcode_stores (clear : s.hold.reasons.pullFail = false) (same : old = s.hold.code) :
    doSetcode p old new s
      = { s with hold := { s.hold with code := new } }.respond p .ok (if new = 0 then 0 else 1) [] := by
  rw [doSetcode, if_neg (Bool.eq_false_iff.mp clear), if_neg (not_not_intro same)]

end Setcode

/-- Settles O48, by the checks of SETCODE in the order of R164. -/
theorem setcodeStoresTheCode : Obligations.SetcodeStoresTheCode := by
  intro old new s hears
  have held := State.taking_hold s (.setcode .cc old new)
  refine ⟨fun stands => ?_, fun clear other => ?_, fun clear same => ⟨?_, ?_⟩⟩
  · exact .of_refuseState (c := .setcode) rfl rfl hears rfl (doSetcode_of_pullFail (by rwa [held]))
  · exact .of_carryOut rfl rfl hears rfl (doSetcode_of_other_code (by rwa [held]) (by rwa [held]))
  · exact .of_carryOut rfl rfl hears rfl (doSetcode_stores (by rwa [held]) (by rwa [held]))
  · simp only [Hold.codeStored, bne, beq_eq_decide]
    exact decide_not.symm

end Sys2Proof.Machine
end

section
/-! RESTART at its taking (R16, R37, R65, R99, R113, R116, R138, R155, R167, R195): what it discards, block by block. -/

namespace Sys2Proof.Machine

/-! ### The map and its program slot (R16, R37) -/

theorem State.program?_setProgram (s : State) (i j : Nat) (q : Option Program) :
    (s.setProgram i q).program? j = if i = j then (if i < 4 then q else none) else s.program? j := by
  simp only [State.program?, State.setProgram_programs, Vector.getElem?_setIfInBounds]
  split
  · split <;> rfl
  · rfl

theorem State.program?_eq_none {s : State} {i : Nat} (beyond : ¬ i < 4) : s.program? i = none := by
  rw [State.program?, Vector.getElem?_eq_none (Nat.not_lt.mp beyond)]
  rfl

/-- The slot of the map returns to READY, and every other slot stays. -/
theorem State.program?_discardMap (s : State) (i : Nat) :
    s.discardMap.program? i = if (s.map.map StripMap.program) = some i then
        (s.program? i).map (fun (q : Program) => { q with state := .ready })
      else s.program? i := by
  cases map : s.map with
  | none => simp only [State.discardMap, map, Option.map_none, reduceCtorEq, if_false]
  | some m =>
    simp only [State.discardMap, map, Option.map_some, Option.some.injEq, State.program?_setProgram]
    split
    · next bound =>
      subst bound
      split
      · rfl
      · next beyond => rw [State.program?_eq_none beyond, Option.map_none]
    · rfl

theorem State.discardMap_selected (s : State) : s.discardMap.programs.selection = s.programs.selection := by
  unfold State.discardMap
  split <;> rfl

theorem State.discardMap_limits (s : State) : s.discardMap.programs.limits = s.programs.limits := by
  unfold State.discardMap
  split <;> rfl

theorem State.restart_pull_discardMap (s : State) : s.discardMap.pull.restart = s.pull.restart := by
  unfold State.discardMap
  split <;> rfl

/-! ### The channels of the captures that are discarded (R86) -/

theorem State.chan_emptyChan (s : State) (c k : ChanId) :
    (s.emptyChan c).chan k = if k = c then (s.chan k).empty else s.chan k := by
  rw [State.emptyChan, State.chan_setChan]
  split
  · next same => rw [same]
  · rfl

theorem State.chan_emptyHead (s : State) (h : Head) (k : ChanId) :
    (s.emptyHead h).chan k = if k.head? = some h then (s.chan k).empty else s.chan k := by
  cases h <;> cases k <;> rfl

theorem State.chan_emptyCaptures (s : State) (k : ChanId) :
    s.emptyCaptures.chan k = if s.captureOpen k then (s.chan k).empty else s.chan k := by
  simp only [State.emptyCaptures, State.captureOpen, apply_ite (State.chan · k), State.chan_emptyHead, State.chan_emptyChan]
  cases k
  all_goals
    simp only [ChanId.head?, reduceCtorEq, Option.some.injEq, if_true, if_false, ite_self]
    rfl

/-! ### The work discarded -/

section DiscardWork

variable (s : State)

theorem State.discardWork_map : s.discardWork.map = none := s.emptyCaptures.discardMap_map

theorem State.program?_discardWork (i : Nat) :
    s.discardWork.program? i = if (s.map.map StripMap.program) = some i then
        (s.program? i).map (fun (q : Program) => { q with state := .ready })
      else s.program? i := by
  have same : s.emptyCaptures.program? = s.program? := by
    funext j
    rw [State.program?, State.emptyCaptures_programs, State.program?]
  refine (State.program?_discardMap s.emptyCaptures i).trans ?_
  rw [State.emptyCaptures_map, same]

theorem State.discardWork_selected : s.discardWork.programs.selection = s.programs.selection :=
  (State.discardMap_selected _).trans (congrArg _ s.emptyCaptures_programs)

theorem State.discardWork_limits : s.discardWork.programs.limits = s.programs.limits :=
  (State.discardMap_limits _).trans (congrArg _ s.emptyCaptures_programs)

theorem State.discardWork_guard : s.discardWork.issuer.guard = s.issuer.guard := by
  simp [State.discardWork]

theorem State.discardWork_lastServed : s.discardWork.issuer.lastServed = s.issuer.lastServed := by
  simp [State.discardWork]

theorem State.capture_discardWork (h : Head) : s.discardWork.capture h = (s.capture h).restart := by
  have kept : s.emptyCaptures.discardMap.bond = s.bond := by simp
  cases h <;> simp only [State.capture, State.discardWork, PerHead.get, kept]

theorem State.discardWork_tracker : s.discardWork.tracker = s.tracker.restart := by
  simp [State.discardWork]

theorem State.discardWork_pull : s.discardWork.pull = s.pull.restart :=
  (State.restart_pull_discardMap _).trans (congrArg _ s.emptyCaptures_pull)

theorem State.chan_discardWork (c : ChanId) :
    s.discardWork.chan c = if s.captureOpen c then (s.chan c).empty else s.chan c := by
  have kept : s.discardWork.channels = s.emptyCaptures.channels := State.discardMap_channels _
  rw [State.chan, kept]
  exact State.chan_emptyCaptures s c

end DiscardWork

/-- RESTART voids the records that are PENDING or TESTING (R155). -/
theorem PullStore.records_restart (p : PullStore) :
    p.restart.records = p.records.map (fun r =>
      if r.state = .pending ∨ r.state = .testing then { r with state := .void } else r) := by
  simp only [PullStore.restart, PullRecord.open?, Bool.or_eq_true, beq_iff_eq]

/-- Settles O12, by what RESTART does in each block. -/
theorem restartDiscardsTheWork : Obligations.RestartDiscardsTheWork := by
  intro s hears
  let u := s.taking (.restart .cc)
  have opened : u.captureOpen = s.captureOpen := by
    funext c
    rw [State.captureOpen_eq, State.captureOpen_eq, State.taking_capture, State.taking_pull]
  have pull : u.discardWork.pull = s.pull.restart := by rw [State.discardWork_pull, State.taking_pull]
  refine ⟨u.discardWork, ?answers, u.discardWork_map, congrArg PullStore.selection pull, fun i => ?program, ?selected,
    ?limits, fun h => ?feed, ?guard, ?lastServed, fun h => ?capture, ?tracker, ?records, congrArg PullStore.capture pull,
    (congrArg PullStore.period pull :), (congrArg PullStore.limit pull :), (congrArg PullStore.units pull :),
    (congrArg PullStore.counter pull :), (congrArg PullStore.nextId pull :), fun c => ?channel, ?links, ?hold, ?screen,
    ?pending⟩
  case answers =>
    refine .of_carryOut (f := doRestart .cc) rfl rfl hears rfl ?_
    rw [doRestart, State.discardWork_ports]
    rfl
  case program => rw [State.program?_discardWork, State.taking_map, State.taking_program?]
  case selected => rw [State.discardWork_selected, State.taking_programs]
  case limits => rw [State.discardWork_limits, State.taking_programs]
  case feed =>
    rw [State.feed_discardWork, State.taking_feed]
    rfl
  case guard => rw [State.discardWork_guard, State.taking_issuer]
  case lastServed => rw [State.discardWork_lastServed, State.taking_issuer]
  case capture =>
    rw [State.capture_discardWork, State.taking_capture]
    rfl
  case tracker =>
    rw [State.discardWork_tracker, State.taking_tracker]
    rfl
  case records => rw [pull, PullStore.records_restart]
  case channel =>
    rw [State.chan_discardWork, opened, State.taking_chan]
    rfl
  case links => rw [State.discardWork_links, State.taking_links]
  case hold => rw [State.discardWork_hold, State.taking_hold]
  case screen => rw [State.discardWork_screen, State.taking_screen]
  case pending => rw [State.discardWork_pending, State.taking_pending]

end Sys2Proof.Machine
end

section
/-! The law of the DL transmitter (R181, R182): what drawing leaves of the transmitter, what the events of PNLRDY and DL make of
it, and so every step. -/

namespace Sys2Proof.Machine

/-! ### The law of a screen -/

/-- The law of the transmitter without its clause on the dirty set: what holds within an event, before a transfer starts. -/
def Screen.Driven (c : Screen) : Prop :=
  (c.pnlrdy = false → c.tx = none ∧ c.holding = none ∧ c.shift = none) ∧ (c.tx = none → c.holding = none)

/-- The law of the DL transmitter, of the screen alone. -/
def Screen.Law (c : Screen) : Prop := c.Driven ∧ (c.pnlrdy = true → c.tx = none → c.lowestDirty = none)

theorem State.screenLaw_iff (s : State) : s.screenLaw ↔ s.screen.Law :=
  ⟨fun ⟨off, idle, empty⟩ => ⟨⟨off, empty⟩, idle⟩, fun ⟨⟨off, empty⟩, idle⟩ => ⟨off, idle, empty⟩⟩

/-- The lowest dirty row reads the dirty set only. -/
theorem Screen.lowestDirty_congr {c d : Screen} (same : c.dirty = d.dirty) : c.lowestDirty = d.lowestDirty := by
  simp only [Screen.lowestDirty, same]

/-- A transmitter that is sending a row with PNLRDY active meets the law. -/
theorem Screen.law_of_sending {c : Screen} (active : c.pnlrdy = true) (sending : c.tx.isSome = true) : c.Law := by
  have busy : c.tx ≠ none := Option.isSome_iff_ne_none.mp sending
  exact ⟨⟨fun off => absurd (active.symm.trans off) nofun, fun idle => absurd idle busy⟩, fun _ idle => absurd idle busy⟩

/-! ### What changes nothing in the transmitter -/

/-- The transmitter and PNLRDY are the same on both screens. -/
structure Screen.SameLine (c d : Screen) : Prop where
  pnlrdy : d.pnlrdy = c.pnlrdy
  tx : d.tx = c.tx
  holding : d.holding = c.holding
  shift : d.shift = c.shift

theorem Screen.SameLine.refl (c : Screen) : c.SameLine c := ⟨rfl, rfl, rfl, rfl⟩

theorem Screen.SameLine.of_eq {c d : Screen} (same : d = c) : c.SameLine d := same ▸ .refl c

theorem Screen.SameLine.trans {c d e : Screen} (x : c.SameLine d) (y : d.SameLine e) : c.SameLine e :=
  ⟨y.pnlrdy.trans x.pnlrdy, y.tx.trans x.tx, y.holding.trans x.holding, y.shift.trans x.shift⟩

theorem Screen.SameLine.driven {c d : Screen} (same : c.SameLine d) (driven : c.Driven) : d.Driven := by
  rw [Screen.Driven, same.pnlrdy, same.tx, same.holding, same.shift]
  exact driven

theorem Screen.SameLine.law {c d : Screen} (same : c.SameLine d) (dirty : d.dirty = c.dirty) (law : c.Law) : d.Law := by
  obtain ⟨driven, idle⟩ := law
  refine ⟨same.driven driven, ?_⟩
  rw [same.pnlrdy, same.tx, Screen.lowestDirty_congr dirty]
  exact idle

/-- A fold over the screen leaves the transmitter where each of its steps does. -/
theorem Screen.sameLine_foldl {α : Type} {f : Screen → α → Screen} (keeps : ∀ (c : Screen) x, c.SameLine (f c x)) (l : List α)
    (c : Screen) : c.SameLine (l.foldl f c) :=
  List.foldlRecOn l f (.refl c) fun d same x _ => same.trans (keeps d x)

theorem Screen.sameLine_write (c : Screen) (b : Banner) (row col : Nat) (x : Cell) : c.SameLine (c.write b row col x) := by
  unfold Screen.write
  split
  · exact .refl c
  · dsimp only
    split <;> exact ⟨rfl, rfl, rfl, rfl⟩

theorem Screen.sameLine_render (c : Screen) (b : Banner) (r : Region) (a : Attr) (lines : List (List Byte)) :
    c.SameLine (c.render b r a lines) :=
  Screen.sameLine_foldl (fun c _ => Screen.sameLine_foldl (fun c _ => c.sameLine_write b _ _ _) _ c) _ c

theorem Screen.sameLine_refresh (c : Screen) (b : Banner) (old new : State) (r : Option Region) :
    c.SameLine (c.refresh b old new r) := by
  unfold Screen.refresh
  split
  · split
    · exact .refl c
    · exact Screen.sameLine_render ..
  · exact .refl c

theorem State.sameLine_redraw (old new : State) : new.screen.SameLine (old.redraw new) := by
  refine Screen.SameLine.trans ?_ (Screen.sameLine_foldl (fun c r => c.sameLine_refresh _ old new r) _ _)
  split <;> exact ⟨rfl, rfl, rfl, rfl⟩

theorem State.sameLine_defineRegion (s : State) (i : Nat) (r : Region) : s.screen.SameLine (s.defineRegion i r).screen := by
  have defined : s.screen.SameLine { s.screen with regions := s.screen.regions.setIfInBounds i (some r) } :=
    ⟨rfl, rfl, rfl, rfl⟩
  unfold State.defineRegion
  dsimp only
  split
  · exact defined.trans (Screen.sameLine_render ..)
  · exact defined

theorem doRgdef_sameLine (p : PortId) (i owner kind left top width height : Nat) (attr : Byte) (s : State) :
    s.screen.SameLine (doRgdef p i owner kind left top width height attr s).screen := by
  unfold doRgdef
  dsimp only
  split_ifs
  case neg => exact (State.sameLine_defineRegion ..).trans (.of_eq (State.respond_screen ..))
  all_goals exact .of_eq (by simp)

theorem doRgdel_sameLine (p : PortId) (i : Nat) (s : State) : s.screen.SameLine (doRgdel p i s).screen := by
  unfold doRgdel
  split
  · exact .of_eq (State.refuse_screen ..)
  · split
    · exact .of_eq (State.refuse_screen ..)
    · exact ⟨rfl, rfl, rfl, rfl⟩

/-- No command changes the transmitter at its taking. -/
theorem carryOut_sameLine (c : Cmd) (p : PortId) (bs : List Byte) (s : State) :
    s.screen.SameLine (carryOut c p bs s).screen := by
  by_cases def_ : c = .rgdef
  · subst def_
    exact doRgdef_sameLine ..
  by_cases del : c = .rgdel
  · subst del
    exact doRgdel_sameLine ..
  · exact .of_eq (carryOut_screen def_ del p bs s)

theorem State.sameLine_takeAtomic (s : State) (p : PortId) (c : Cmd) (bs : List Byte) :
    s.screen.SameLine (s.takeAtomic p c (carryOut c p bs)).screen := by
  unfold State.takeAtomic
  split
  · exact carryOut_sameLine ..
  · exact .of_eq (State.refuse_screen ..)

theorem State.sameLine_atomicRow (s : State) (p : PortId) (c : Cmd) (bs : List Byte) :
    s.screen.SameLine (s.atomicRow p c bs (carryOut c p bs)).screen := by
  unfold State.atomicRow
  split
  · exact .refl _
  · exact State.sameLine_takeAtomic (s.setPort p _) p c bs

theorem State.sameLine_takeText (s : State) (p : PortId) (i col row : Nat) (attr : Attr) (ch : Byte) :
    s.screen.SameLine (s.takeText p i col row attr ch).screen := by
  unfold State.takeText
  split
  · exact .refl _
  · exact Screen.sameLine_write ..

theorem State.sameLine_paramByte (s : State) (p : PortId) (d : Byte) : s.screen.SameLine (s.paramByte p d).screen := by
  unfold State.paramByte
  dsimp only
  split
  case h_6 =>
    split
    · exact .refl _
    · exact State.sameLine_takeAtomic ((s.setPort p _).setPort p _) p _ _
  case h_10 => exact State.sameLine_takeText (s.setPort p _) ..
  all_goals exact .of_eq (by (try split) <;> simp)

/-! ### The events of the transmitter -/

/-- After the test for the start of a transfer the law holds: a transmitter still IDLE has no row to send (R181). -/
theorem Screen.law_kick {c : Screen} (driven : c.Driven) (b : Banner) : (c.kick b).Law := by
  obtain ⟨off, empty⟩ := id driven
  unfold Screen.kick
  split
  · rename_i ready
    obtain ⟨active, idle⟩ : c.pnlrdy = true ∧ c.tx = none := by simpa using ready
    split
    · cases shift : c.shift with
      | none =>
        rw [Screen.startRow_empty _ _ _ shift (empty idle)]
        exact Screen.law_of_sending active rfl
      | some x =>
        rw [Screen.startRow_behind _ _ _ x shift (empty idle)]
        exact Screen.law_of_sending active rfl
    · exact ⟨driven, fun _ _ => ‹_›⟩
  · rename_i notReady
    exact ⟨driven, fun active idle => absurd (by simp [active, idle]) notReady⟩

theorem Screen.law_ready {c : Screen} (law : c.Law) (b : Banner) : (c.ready b).Law := by
  obtain ⟨⟨_, empty⟩, _⟩ := law
  exact Screen.law_kick (c := { c with pnlrdy := true, dirty := allDirty }) ⟨nofun, empty⟩ b

theorem Screen.law_notReady (c : Screen) : c.notReady.Law :=
  ⟨⟨fun _ => ⟨rfl, rfl, rfl⟩, fun _ => rfl⟩, nofun⟩

/-- The holding byte is empty once the shift byte could take it. -/
theorem Screen.pass_of_shift_none {c : Screen} (empty : c.shift = none) :
    c.pass = { c with shift := c.holding, holding := none } := by
  obtain ⟨cells, regions, dirty, pnlrdy, tx, holding, shift⟩ := c
  cases empty
  cases holding <;> rfl

/-- The next byte of the transfer loaded into an empty holding byte, or the transfer ended, keeps the law. -/
theorem Screen.law_endTransfer_load {c : Screen} (active : c.pnlrdy = true) (empty : c.holding = none)
    (idle : c.tx = none → c.lowestDirty = none) (b : Banner) : (c.load.endTransfer b).Law := by
  have driven : c.Driven := ⟨fun off => absurd (active.symm.trans off) nofun, fun _ => empty⟩
  obtain ⟨cells, regions, dirty, pnlrdy, tx, holding, shift⟩ := c
  cases empty
  match tx with
  | none => exact ⟨driven, fun _ => idle⟩
  | some ⟨row, []⟩ =>
    exact Screen.law_kick (c := ⟨cells, regions, dirty, pnlrdy, none, none, shift⟩)
      ⟨fun off => absurd (active.symm.trans off) nofun, fun _ => rfl⟩ b
  | some ⟨row, x :: rest⟩ => exact Screen.law_of_sending active rfl

theorem Screen.law_byteSent {c : Screen} (law : c.Law) (b : Banner) : (c.byteSent b).Law := by
  obtain ⟨⟨off, _⟩, idle⟩ := id law
  unfold Screen.byteSent
  split
  · exact law
  · rename_i busy
    have active : c.pnlrdy = true := by
      by_contra inactive
      exact busy (by simp [off (Bool.eq_false_iff.mpr inactive)])
    rw [Screen.pass_of_shift_none rfl]
    exact Screen.law_endTransfer_load (c := { c with shift := c.holding, holding := none }) active rfl (idle active) b

theorem Screen.law_released (pnlrdy : Bool) (b : Banner) : (Screen.released pnlrdy b).Law := by
  have reset : Screen.reset.Law := ⟨⟨fun _ => ⟨rfl, rfl, rfl⟩, fun _ => rfl⟩, nofun⟩
  cases pnlrdy with
  | false => exact reset
  | true => exact Screen.law_ready reset b

/-! ### The end of an event -/

/-- The end of an event that left the transmitter as it was: a transfer starts if a row became dirty (R181). -/
theorem State.screenLaw_finish {old new : State} (law : old.screenLaw) (same : old.screen.SameLine new.screen) :
    (old.finish new).screenLaw := by
  rw [State.screenLaw_iff] at law ⊢
  have drawn : old.screen.SameLine (old.redraw new) := same.trans (State.sameLine_redraw old new)
  unfold State.finish
  dsimp only
  split
  · rename_i dirty
    exact drawn.law dirty law
  · exact Screen.law_kick (drawn.driven law.1) _

/-- The end of an event that changes the screen only, and so neither a field's text nor the banner: nothing is drawn. -/
theorem State.finish_screen (s : State) (c : Screen) :
    s.finish { s with screen := c }
      = { s with screen := if c.dirty = s.screen.dirty then c else c.kick s.hold.banner } := by
  have drawn : s.redraw { s with screen := c } = c :=
    State.redraw_self rfl (State.fieldText_congr rfl rfl rfl rfl rfl rfl)
  rw [State.finish, drawn]

theorem State.screenLaw_finish_screen {s : State} {c : Screen} (law : c.Law) : (s.finish { s with screen := c }).screenLaw := by
  rw [State.screenLaw_iff, State.finish_screen]
  dsimp only
  split
  · exact law
  · exact Screen.law_kick law.1 _

theorem State.screenLaw_of_screen {s t : State} (same : t.screen = s.screen) (law : s.screenLaw) : t.screenLaw := by
  rw [State.screenLaw_iff] at law ⊢
  rwa [same]

/-! ### Bytes and steps -/

theorem State.screenLaw_byteEvent {s : State} (law : s.screenLaw) (p : PortId) (d : Byte) : (s.byteEvent p d).screenLaw := by
  unfold State.byteEvent
  split
  · exact law
  · exact State.screenLaw_finish law (State.sameLine_paramByte s p d)

theorem State.screenLaw_deliver {s : State} (law : s.screenLaw) (p : PortId) (bs : List Byte) :
    (s.deliver p bs).screenLaw := by
  induction bs generalizing s with
  | nil => exact law
  | cons b bs ih => exact ih (State.screenLaw_byteEvent law p b)

theorem State.screenLaw_commandByte_deliver {s : State} (law : s.screenLaw) (p : PortId) (c : Cmd) (bs : List Byte) :
    ((s.commandByte p c).deliver p bs).screenLaw :=
  State.screenLaw_deliver (State.screenLaw_of_screen (State.commandByte_screen ..) law) p bs

theorem exec_screenLaw {i : Instr} {s t : State} (law : s.screenLaw) (e : exec i s = .next t) : t.screenLaw := by
  have screen : s.screen.Law := s.screenLaw_iff.mp law
  cases hc : i.command? with
  | some x =>
    obtain ⟨p, c⟩ := x
    rw [exec_command hc] at e
    cases e
    exact State.screenLaw_finish law (State.sameLine_atomicRow ..)
  | none =>
    cases i <;> simp only [Instr.command?, reduceCtorEq] at hc
    case rst => cases e; exact (State.screenLaw_iff _).mpr (Screen.law_released ..)
    case readoutByte => cases e; exact State.screenLaw_byteEvent law _ _
    case wtxtTextByte => cases e; exact State.screenLaw_deliver law _ _
    case pwireGroup => cases e; exact State.screenLaw_deliver law _ _
    case pwire =>
      simp only [exec, execPwire] at e
      split at e <;> cases e
      · exact State.screenLaw_deliver law _ _
      · exact State.screenLaw_commandByte_deliver law _ _ _
    case wtxt =>
      simp only [exec, execWtxt] at e
      split at e <;> cases e
      · exact State.screenLaw_deliver law _ _
      · exact State.screenLaw_commandByte_deliver law _ _ _
    case unknownCommand =>
      simp only [exec, execUnknownCommand] at e
      split at e <;> cases e
      exact State.screenLaw_finish law (.of_eq (by split <;> simp))
    case commandByte =>
      simp only [exec, execCommandByte] at e
      split at e <;> cases e
      exact State.screenLaw_finish law (.of_eq (State.commandByte_screen ..))
    case selectRelease =>
      simp only [exec, execSelectRelease] at e
      split at e <;> cases e
      exact State.screenLaw_finish law (.refl _)
    case pnlrdyRise =>
      cases e
      split
      · exact State.screenLaw_finish law (.refl _)
      · exact State.screenLaw_finish_screen (Screen.law_ready screen _)
    case pnlrdyFall =>
      cases e
      split
      · exact State.screenLaw_finish_screen (Screen.law_notReady _)
      · exact State.screenLaw_finish law (.refl _)
    case dlByteSent => cases e; exact State.screenLaw_finish_screen (Screen.law_byteSent screen _)
    all_goals
      cases e
      exact State.screenLaw_finish law (.of_eq (by (try split) <;> simp))

/-- Settles O57: within an event the transmitter changes only by the events of PNLRDY and DL, each of which keeps its law, and at
the end of an event a transfer starts if a row became dirty. -/
theorem stepKeepsScreenLaw : Obligations.StepKeepsScreenLaw := by
  intro s t law e
  unfold step at e
  split at e
  · cases e
    exact law
  · exact exec_screenLaw (State.screenLaw_of_screen (by rfl) law) e

end Sys2Proof.Machine
end

section
/-! PNLRDY and the bytes of DL (R181, R182): the transfers that start, run, end and are abandoned, and the level of DL. -/

namespace Sys2Proof.Machine

/-! ### Transfers that start -/

/-- No transfer starts while PNLRDY is inactive or a transfer is in flight (R181). -/
theorem Screen.kick_of_not_idle {c : Screen} (busy : c.pnlrdy = false ∨ c.tx ≠ none) (b : Banner) : c.kick b = c := by
  refine if_neg fun idle => ?_
  obtain ⟨active, empty⟩ : c.pnlrdy = true ∧ c.tx = none := by simpa using idle
  rcases busy with inactive | sending
  · exact absurd (active.symm.trans inactive) nofun
  · exact sending empty

/-- No transfer starts while no row is dirty (R181). -/
theorem Screen.kick_of_clean {c : Screen} (clean : c.lowestDirty = none) (b : Banner) : c.kick b = c := by
  simp only [Screen.kick, clean, ite_self]

theorem Screen.kick_of_idle {c : Screen} {row : Nat} (active : c.pnlrdy = true) (idle : c.tx = none)
    (lowest : c.lowestDirty = some row) (b : Banner) : c.kick b = c.startRow b row := by
  simp only [Screen.kick, active, idle, lowest, Option.isNone_none, Bool.and_self, if_true]

/-- The end of an event of the screen in which no transfer starts any more. -/
theorem State.finish_screen_of_not_idle (s : State) {c : Screen} (busy : c.pnlrdy = false ∨ c.tx ≠ none) :
    s.finish { s with screen := c } = { s with screen := c } := by
  rw [State.finish_screen, Screen.kick_of_not_idle busy, ite_self]

/-- The end of an event of the screen that left the dirty set as it was. -/
theorem State.finish_screen_of_same_dirty (s : State) {c : Screen} (same : c.dirty = s.screen.dirty) :
    s.finish { s with screen := c } = { s with screen := c } := by
  rw [State.finish_screen, if_pos same]

/-! ### The level of DL (section 11.8) -/

theorem Screen.dl_of_shift {c : Screen} {x : Byte} (sending : c.shift = some x) :
    c.dl 0 = false ∧ (∀ i, i < 8 → c.dl (1 + i) = x.getLsbD i) ∧ c.dl 9 = true := by
  have level : ∀ bit, c.dl bit = (dlFrame x).getD bit dlRest := fun bit => by simp only [Screen.dl, sending]
  refine ⟨level 0, fun i small => ?_, level 9⟩
  rw [level, Nat.add_comm]
  simp [dlFrame, List.getElem?_append, small]

theorem Screen.dl_of_rest {c : Screen} (rest : c.shift = none) (bit : Nat) : c.dl bit = true := by
  simp only [Screen.dl, rest, dlRest]

/-! ### PNLRDY (R182) -/

/-- The rise on an empty transmitter starts the transfer of row 0. -/
theorem Screen.ready_of_empty {c : Screen} (idle : c.tx = none) (holding : c.holding = none) (shift : c.shift = none)
    (b : Banner) : c.ready b = { c with
      pnlrdy := true
      dirty := allDirty.set 0 false
      shift := some 0x80
      holding := (c.rowBytes b 0)[1]?
      tx := some { row := 0, rest := (c.rowBytes b 0).drop 2 } } := by
  have lowest : ({ c with pnlrdy := true, dirty := allDirty } : Screen).lowestDirty = some 0 :=
    Screen.lowestDirty_eq _ 0 rfl fun r below => absurd below (Fin.not_lt_zero r)
  exact (Screen.kick_of_idle (c := { c with pnlrdy := true, dirty := allDirty }) rfl idle lowest b).trans
    (Screen.startRow_empty _ b 0 shift holding)

/-! ### A byte sent (R181) -/

section ByteSent

variable {c : Screen} (b : Banner)

/-- The shift byte empties: the holding byte passes, the next byte is loaded, and the transfer perhaps ends. -/
theorem Screen.byteSent_of_sending (sending : c.shift.isSome = true) :
    c.byteSent b = ({ c with shift := c.holding, holding := none }.load).endTransfer b := by
  have busy : ¬c.shift.isNone = true := by simpa using Option.isSome_iff_ne_none.mp sending
  rw [Screen.byteSent, if_neg busy, Screen.pass_of_shift_none rfl]

theorem Screen.byteSent_loads {x y : Byte} {row : Nat} {rest : List Byte} (sending : c.shift.isSome = true)
    (holding : c.holding = some x) (transfer : c.tx = some { row := row, rest := y :: rest }) :
    c.byteSent b = { c with shift := some x, holding := some y, tx := some { row := row, rest := rest } } := by
  rw [Screen.byteSent_of_sending b sending, holding]
  simp only [Screen.load, transfer]
  rfl

theorem Screen.byteSent_ends {x : Byte} {row : Nat} (sending : c.shift.isSome = true) (holding : c.holding = some x)
    (transfer : c.tx = some { row := row, rest := [] }) :
    c.byteSent b = ({ c with shift := some x, holding := none, tx := none } : Screen).kick b := by
  rw [Screen.byteSent_of_sending b sending, holding]
  simp only [Screen.load, transfer]
  rfl

theorem Screen.byteSent_empties (sending : c.shift.isSome = true) (holding : c.holding = none) (idle : c.tx = none) :
    c.byteSent b = { c with shift := none } := by
  rw [Screen.byteSent_of_sending b sending, holding]
  simp only [Screen.load, idle]
  rw [Screen.endTransfer, if_neg (by simp), ← holding]

end ByteSent

/-- Settles O51: each event's screen by the case of the transmitter, after which no other transfer starts. -/
theorem transfersRunOverDL : Obligations.TransfersRunOverDL := by
  intro s c bytes
  have sent : ∀ {d : Screen}, c.byteSent s.hold.banner = d → d.pnlrdy = false ∨ d.tx ≠ none ∨ d.dirty = c.dirty →
      exec .dlByteSent s = .next { s with screen := d } := by
    rintro d rfl quiet
    have event : exec .dlByteSent s = .next (s.finish { s with screen := c.byteSent s.hold.banner }) := rfl
    rw [event]
    rcases or_assoc.mpr quiet with busy | same
    · rw [State.finish_screen_of_not_idle s busy]
    · rw [State.finish_screen_of_same_dirty s same]
  have fall : c.pnlrdy = true → exec .pnlrdyFall s = .next { s with screen := c.notReady } := by
    intro active
    have event : exec .pnlrdyFall s = .next (s.finish { s with screen := c.notReady }) :=
      congrArg (fun t => Host.Outcome.next (s.finish t)) (if_pos active)
    rw [event, State.finish_screen_of_not_idle s (.inl rfl)]
  refine ⟨fun x => Screen.dl_of_shift, Screen.dl_of_rest, fun active => ?_, fun inactive => ?_,
    fun inactive idle holding shift => ?_, fun active t transfer => ?_, fun active idle => ?_,
    fun x row y rest sending holding transfer => ?_, fun x row sending holding transfer clean => ?_,
    fun x row next sending holding transfer active lowest => ?_, fun sending holding idle => ?_, fun empty => ?_⟩
  · have event : exec .pnlrdyRise s = .next (s.finish s) :=
      congrArg (fun t => Host.Outcome.next (s.finish t)) (if_pos active)
    rw [event, State.finish_same]
  · have event : exec .pnlrdyFall s = .next (s.finish s) :=
      congrArg (fun t => Host.Outcome.next (s.finish t)) (if_neg (Bool.eq_false_iff.mp inactive))
    rw [event, State.finish_same]
  · have event : exec .pnlrdyRise s = .next (s.finish { s with screen := c.ready s.hold.banner }) :=
      congrArg (fun t => Host.Outcome.next (s.finish t)) (if_neg (Bool.eq_false_iff.mp inactive))
    rw [event, Screen.ready_of_empty idle holding shift, State.finish_screen_of_not_idle s (.inr (Option.some_ne_none _))]
    rfl
  · rw [fall active, Screen.notReady, transfer]
    rfl
  · rw [fall active, Screen.notReady, idle]
  · exact sent (Screen.byteSent_loads _ sending holding transfer) (.inr (.inl (Option.some_ne_none _)))
  · refine sent ((Screen.byteSent_ends _ sending holding transfer).trans (Screen.kick_of_clean ?_ _)) (.inr (.inr rfl))
    exact (Screen.lowestDirty_congr rfl).trans clean
  · refine sent ((Screen.byteSent_ends _ sending holding transfer).trans ?_) (.inr (.inl (Option.some_ne_none _)))
    have ended : ({ c with shift := some x, holding := none, tx := none } : Screen).lowestDirty = some next :=
      (Screen.lowestDirty_congr rfl).trans lowest
    exact (Screen.kick_of_idle (c := { c with shift := some x, holding := none, tx := none }) active rfl ended _).trans
      (Screen.startRow_behind _ _ _ x rfl rfl)
  · exact sent (Screen.byteSent_empties _ sending holding idle) (.inr (.inr rfl))
  · exact sent (if_pos (by simp [c, empty])) (.inr (.inr rfl))

end Sys2Proof.Machine
end

section
/-! WTXT and its text bytes (R172 to R174, R180): the header's checks in their order, the cell that a text byte writes and the
write pointer after it. -/

namespace Sys2Proof.Machine

/-! ### The header (R172) -/

section Header

variable {c : Screen} {p : PortId} {i col row : Nat} {attr : Byte} {r : Region}

theorem attrBad_eq_false_iff (n : Nat) : attrBad n = false ↔ n < 16 := by
  simp only [attrBad, decide_eq_false_iff_not]
  omega

theorem Screen.checkHeader_of_bad_index (big : 8 ≤ i) : c.checkHeader p i col row attr = (.range, .ignore) :=
  if_pos big

theorem Screen.checkHeader_of_unknown (le : i ≤ 7) (unknown : c.region? i = none) :
    c.checkHeader p i col row attr = (.notFound, .ignore) := by
  rw [Screen.checkHeader, if_neg (Nat.not_lt.mpr le), unknown]

theorem Screen.checkHeader_of_role (le : i ≤ 7) (known : c.region? i = some r) (foreign : r.owner ≠ .port p) :
    c.checkHeader p i col row attr = (.role, .ignore) := by
  rw [Screen.checkHeader, if_neg (Nat.not_lt.mpr le), known]
  exact if_pos foreign

theorem Screen.checkHeader_of_range (le : i ≤ 7) (known : c.region? i = some r) (own : r.owner = .port p)
    (bad : r.width ≤ col ∨ r.height ≤ row ∨ 16 ≤ attr.toNat) : c.checkHeader p i col row attr = (.range, .ignore) := by
  rw [Screen.checkHeader, if_neg (Nat.not_lt.mpr le), known]
  dsimp only
  rw [if_neg (not_not_intro own)]
  rcases or_assoc.mpr bad with outside | high
  · exact if_pos outside
  · have bits : attrBad attr.toNat = true := decide_eq_true (by omega)
    rw [if_pos bits, ite_self]

theorem Screen.checkHeader_binds (le : i ≤ 7) (known : c.region? i = some r) (own : r.owner = .port p)
    (inWidth : col < r.width) (inHeight : row < r.height) (small : attr.toNat < 16) :
    c.checkHeader p i col row attr = (.ok, .wtxtText i col row (.ofByte attr)) := by
  have good : attrBad attr.toNat ≠ true := Bool.eq_false_iff.mp ((attrBad_eq_false_iff _).mpr small)
  rw [Screen.checkHeader, if_neg (Nat.not_lt.mpr le), known]
  dsimp only
  rw [if_neg (not_not_intro own), if_neg (by omega), if_neg good]

end Header

/-- A header sets the previous-result and the framing of its port whatever they were. -/
def Port.headerTaken (q : Port) (answer : CmdResult × Framing) : Port :=
  { q with dataOut := 0, unfinished := none, previous := answer.1, framing := answer.2 }

/-- The bytes of a header that are still to come: their events are one, that of the last (R172). -/
theorem State.deliver_header {p : PortId} (more : List Byte) :
    ∀ {s : State} {received : List Byte}, s.hears p → (s.port p).framing = .wtxtHeader received → more ≠ [] →
      received.length + more.length = 4 →
      s.deliver p more = s.setPort p ((s.port p).headerTaken
        (s.screen.checkHeader p (p8 (received ++ more) 0) (p8 (received ++ more) 1) (p8 (received ++ more) 2)
          ((received ++ more).getD 3 0))) := by
  induction more with
  | nil => intro s received _ _ ne; exact absurd rfl ne
  | cons d more ih =>
    intro s received h hf _ len
    have split : s.deliver p (d :: more) = (s.byteEvent p d).deliver p more := rfl
    rw [List.length_cons] at len
    rw [split, State.byteEvent_of_hears h]
    by_cases last : more = []
    · subst last
      have full : ¬received.length + 1 < 4 := by rw [List.length_nil] at len; omega
      simp [State.paramByte, hf, full, State.takeWtxtHeader, State.finish_setPort, State.deliver, Port.headerTaken,
        Port.outByte]
    · have more1 := List.length_pos_iff.mpr last
      have short : received.length + 1 < 4 := by omega
      have byte : s.finish (s.paramByte p d) = s.setPort p
          { s.port p with dataOut := 0, unfinished := none, framing := .wtxtHeader (received ++ [d]) } := by
        simp [State.paramByte, hf, short, State.finish_setPort, Port.outByte]
      rw [byte, ih (received := received ++ [d]) (by simpa [State.hears] using h) (by simp) last (by simp; omega)]
      simp [Port.headerTaken]

/-- The row WTXT on a port that has received the beginning of the header is the header (R172). -/
theorem exec_wtxt {s : State} {p : PortId} (h : s.hears p) {received : List Byte} {index col row attr : Byte}
    (hf : (s.port p).framing = .wtxtHeader received)
    (begun : received.isPrefixOf [index, col, row, attr] = true) (len : received.length < 4) :
    exec (.wtxt p index col row attr) s = .next (s.setPort p ((s.port p).headerTaken
      (s.screen.checkHeader p index.toNat col.toNat row.toNat attr))) := by
  obtain ⟨more, whole⟩ := List.isPrefixOf_iff_prefix.mp begun
  have four : received.length + more.length = 4 := by rw [← List.length_append, whole]; rfl
  have rest : (s.port p).headerBytes [index, col, row, attr] = some more := by
    have cut : [index, col, row, attr].drop received.length = more := by rw [← whole, List.drop_left]
    simp [Port.headerBytes, hf, unreceived, begun, len, cut]
  have ne : more ≠ [] := by
    rintro rfl
    rw [List.length_nil] at four
    omega
  show execWtxt p index col row attr s = _
  have bytes : paramBytes (.wtxt p index col row attr) = [index, col, row, attr] := rfl
  rw [execWtxt, bytes, rest]
  dsimp only
  rw [State.deliver_header more h hf ne four, whole]
  rfl

/-- The row WTXT on a port that does not wait for a header begins with its command byte (R187). -/
theorem exec_wtxt_of_not_waiting {s : State} {p : PortId} (h : s.hears p) (index col row attr : Byte)
    (other : ∀ received, (s.port p).framing ≠ .wtxtHeader received) :
    exec (.wtxt p index col row attr) s
      = exec (.wtxt p index col row attr) (s.setPort p { (s.port p).commandByte with framing := .wtxtHeader [] }) := by
  have begun : s.commandByte p .wtxt = s.setPort p { (s.port p).commandByte with framing := .wtxtHeader [] } :=
    if_neg (Bool.eq_false_iff.mp h)
  have waitsNot : (s.port p).headerBytes [index, col, row, attr] = none := by
    unfold Port.headerBytes
    split
    · exact absurd ‹_› (other _)
    · rfl
  have all : Port.headerBytes { (s.port p).commandByte with framing := .wtxtHeader [] } [index, col, row, attr]
      = some [index, col, row, attr] := rfl
  have bytes : paramBytes (.wtxt p index col row attr) = [index, col, row, attr] := rfl
  show execWtxt p index col row attr s = execWtxt p index col row attr (s.setPort p _)
  simp only [execWtxt, bytes, waitsNot, begun, State.port_setPort_self, all]

/-! ### The text bytes (R173, R174, R180) -/

/-- A write makes its row dirty where it changes a displayed cell (R180), wherever its cell lies. -/
theorem Screen.dirty_write (c : Screen) (b : Banner) (row col : Nat) (x : Cell) (y : Fin 20) :
    (c.write b row col x).dirty[y]
      = (c.dirty[y] || decide (y.val = row ∧ ¬(b ≠ .none ∧ row < 2) ∧ c.cell row col ≠ x)) := by
  unfold Screen.write
  split
  · rename_i same
    simp [same]
  · rename_i differs
    dsimp only
    split
    · rename_i under
      have covered : b ≠ .none ∧ row < 2 := under
      simp [covered]
    · rename_i shown
      have free : ¬(b ≠ .none ∧ row < 2) := shown
      simp only [Screen.markDirty, Fin.getElem_fin, Vector.getElem_setIfInBounds]
      by_cases here : row = y.val
      · rw [if_pos here, decide_eq_true ⟨here.symm, free, differs⟩, Bool.or_true]
      · rw [if_neg here, decide_eq_false fun ⟨same, _⟩ => here same.symm, Bool.or_false]

/-- The row WTXT_TEXT_BYTE on a port whose WTXT is bound to a region (R173). -/
theorem exec_wtxtTextByte {s : State} {p : PortId} (h : s.hears p) {k col row : Nat} {a : Attr} {r : Region}
    (hf : (s.port p).framing = .wtxtText k col row a) (known : s.screen.region? k = some r) (ch : Byte) :
    exec (.wtxtTextByte p ch) s = .next (s.finish
      ({ s with screen := s.screen.write s.hold.banner (r.top + row) (r.left + col) { ch := ch, attr := a } }.setPort p
        { s.port p with
          dataOut := 0
          unfinished := none
          framing := .wtxtText k (nextCell r.width r.height col row).1 (nextCell r.width r.height col row).2 a })) := by
  have event : exec (.wtxtTextByte p ch) s = .next (s.byteEvent p ch) := rfl
  have taken : s.paramByte p ch
      = (s.setPort p { s.port p with dataOut := 0, unfinished := none }).takeText p k col row a ch := by
    simp [State.paramByte, hf, Port.outByte]
  rw [event, State.byteEvent_of_hears h, taken, State.takeText, State.setPort_screen, known]
  simp [State.setPort, State.port]

theorem exec_wtxtTextByte_of_cut {s : State} {p : PortId} (h : s.hears p) (hf : (s.port p).framing = .wtxtCut) (ch : Byte) :
    exec (.wtxtTextByte p ch) s = .next (s.setPort p
      { s.port p with dataOut := 0, unfinished := none, previous := .notFound, framing := .ignore }) := by
  have event : exec (.wtxtTextByte p ch) s = .next (s.byteEvent p ch) := rfl
  rw [event, State.byteEvent_of_hears h]
  simp [State.paramByte, hf, Port.outByte, State.finish_setPort]

/-- Settles O50: the header's checks in their order, and the write of a text byte. -/
theorem wtxtWritesTheRegion : Obligations.WtxtWritesTheRegion := by
  intro p s hears
  refine ⟨fun index col row attr received waits begun len => ?header,
    fun index col row attr other => exec_wtxt_of_not_waiting hears _ _ _ _ other,
    fun ch k col row a r bound known => ?text, fun ch cut => exec_wtxtTextByte_of_cut hears cut ch⟩
  case header =>
    have answered : ∀ {r : CmdResult} {f : Framing},
        s.screen.checkHeader p index.toNat col.toNat row.toNat attr = (r, f) →
        exec (.wtxt p index col row attr) s = .next (s.setPort p ((s.port p).headerTaken (r, f))) := by
      intro r f answer
      rw [exec_wtxt hears waits begun len, answer]
    refine ⟨fun big => ?_, fun le unknown => ?_, fun r le known => ⟨fun foreign => ?_, fun own bad => ?_,
      fun own inWidth inHeight small => ?_⟩⟩
    · exact answered (Screen.checkHeader_of_bad_index big)
    · exact answered (Screen.checkHeader_of_unknown le unknown)
    · exact answered (Screen.checkHeader_of_role le known foreign)
    · exact answered (Screen.checkHeader_of_range le known own bad)
    · exact answered (Screen.checkHeader_binds le known own inWidth inHeight small)
  case text =>
    intro next x bannered
    have line := s.screen.sameLine_write s.hold.banner (r.top + row) (r.left + col) x
    refine ⟨s.screen.write s.hold.banner (r.top + row) (r.left + col) x, exec_wtxtTextByte hears bound known ch,
      fun onRow onCol => ?_, fun y z elsewhere => ?_, Screen.dirty_write _ _ _ _ _, Screen.regions_write .., line.tx,
      line.holding, line.shift, line.pnlrdy⟩
    · rw [Screen.cell_write, if_pos ⟨rfl, rfl, onRow, onCol⟩]
    · rw [Screen.cell_write, if_neg fun ⟨sameRow, sameCol, _⟩ => elsewhere (Prod.ext sameRow.symm sameCol.symm)]

end Sys2Proof.Machine
end

section
/-! RGDEF and RGDEL at their taking (R170, R171, R174, R175): the checks in their order, the region defined or removed. -/

namespace Sys2Proof.Machine

@[simp] theorem State.taking_fieldText (s : State) (i : Instr) (k : FieldKind) : (s.taking i).fieldText k = s.fieldText k :=
  State.fieldText_congr (by simp) (by simp) (by simp) (by simp) (by simp) (by simp) k

/-! ### The checks of RGDEF (R170) -/

/-- Each parameter byte of RGDEF that names something is in its range. -/
def rgdefBytesOk (i owner kind : Nat) (attr : Byte) : Prop :=
  i ≤ 7 ∧ owner ≤ 4 ∧ attr.toNat < 16 ∧ (owner = 4 → kind ≤ 4)

/-- The region has a cell and lies on the panel. -/
def Region.onPanel (r : Region) : Prop :=
  1 ≤ r.width ∧ 1 ≤ r.height ∧ r.left + r.width ≤ 48 ∧ r.top + r.height ≤ 20

theorem FieldKind.minWidth_ofCode (kind : Nat) : (FieldKind.ofCode kind).minWidth = if kind = 0 then 24 else 20 := by
  unfold FieldKind.ofCode
  split_ifs <;> rfl

theorem FieldKind.minHeight_ofCode {kind : Nat} (le : kind ≤ 4) :
    (FieldKind.ofCode kind).minHeight = if kind = 4 then 1 else 2 := by
  unfold FieldKind.ofCode
  split_ifs <;> first | rfl | omega

/-- The size of an AUTO region is at least its field's (R175). -/
theorem Region.fitsField_iff {r : Region} {owner kind : Nat} {attr : Byte} (of : r.owner = ownerOf owner kind attr)
    (le : owner = 4 → kind ≤ 4) :
    r.fitsField = true ↔
      (owner = 4 → (if kind = 0 then 24 else 20) ≤ r.width ∧ (if kind = 4 then 1 else 2) ≤ r.height) := by
  unfold Region.fitsField
  rw [of, ownerOf]
  by_cases auto : owner = 4
  · rw [if_pos auto]
    simp only [FieldKind.minWidth_ofCode, FieldKind.minHeight_ofCode (le auto), decide_eq_true_eq, auto, true_implies]
  · rw [if_neg auto]
    simp only [auto, false_implies]

/-- A region clashes with the defined regions that it shares a cell with (R169). -/
theorem Screen.clashes_iff (c : Screen) (r : Region) :
    c.clashes r = true ↔ ∃ (k : Nat) (q : Region), c.region? k = some q ∧ q.left < r.left + r.width
      ∧ r.left < q.left + q.width ∧ q.top < r.top + r.height ∧ r.top < q.top + q.height := by
  have shares : ∀ q, r.overlaps q = true ↔ q.left < r.left + r.width ∧ r.left < q.left + q.width
      ∧ q.top < r.top + r.height ∧ r.top < q.top + q.height := by
    intro q
    rw [Region.overlaps_comm, Region.overlaps, decide_eq_true_iff]
  rw [Screen.clashes, List.any_eq_true]
  constructor
  · rintro ⟨o, mem, touch⟩
    cases o with
    | none => exact absurd touch Bool.false_ne_true
    | some q =>
      obtain ⟨k, known⟩ := (c.mem_regions q).mp mem
      exact ⟨k, q, known, (shares q).mp touch⟩
  · rintro ⟨k, q, known, touch⟩
    exact ⟨some q, (c.mem_regions q).mpr ⟨k, known⟩, (shares q).mpr touch⟩

/-- A region defined at a free index is one region more. -/
theorem Screen.regionCount_define {c : Screen} {i : Nat} (inside : i ≤ 7) (free : c.region? i = none) (r : Region) :
    ({ c with regions := c.regions.setIfInBounds i (some r) } : Screen).regionCount = c.regionCount + 1 := by
  have lt : i < 8 := by omega
  have at_ : c.regions.toList[i]'(by simpa using lt) = none := by
    simpa [Screen.region?, Vector.getElem?_eq_getElem lt] using free
  simp only [Screen.regionCount, Vector.toList_setIfInBounds]
  rw [List.countP_set (by simpa using lt), at_]
  simp

theorem Screen.regionCount_congr {c d : Screen} (same : c.regions = d.regions) : c.regionCount = d.regionCount := by
  simp only [Screen.regionCount, same]

/-- The checks that answer RANGE, in the order in which RGDEF makes them, pass together. -/
theorem rgdef_inRange_iff {i owner kind : Nat} {attr : Byte} {r : Region} :
    (¬(7 < i ∨ 4 < owner ∨ attrBad attr.toNat = true) ∧ ¬(owner = 4 ∧ 4 < kind)
        ∧ ¬(r.width = 0 ∨ r.height = 0 ∨ Config.columns < r.left + r.width ∨ Config.rows < r.top + r.height)
        ∧ ¬(!r.fitsField) = true)
      ↔ rgdefBytesOk i owner kind attr ∧ r.onPanel ∧ r.fitsField = true := by
  have columns : Config.columns = 48 := rfl
  have rows : Config.rows = 20 := rfl
  simp only [rgdefBytesOk, Region.onPanel, Bool.not_eq_true', Bool.not_eq_false, Bool.eq_false_iff.symm, not_or,
    attrBad_eq_false_iff, columns, rows]
  constructor
  · rintro ⟨⟨index, own, bits⟩, kindOk, ⟨wide, high, inColumns, inRows⟩, fits⟩
    exact ⟨⟨by omega, by omega, bits, by omega⟩, ⟨by omega, by omega, by omega, by omega⟩, fits⟩
  · rintro ⟨⟨index, own, bits, kindOk⟩, ⟨wide, high, inColumns, inRows⟩, fits⟩
    exact ⟨⟨by omega, by omega, bits⟩, by omega, ⟨by omega, by omega, by omega, by omega⟩, fits⟩

/-! ### RGDEF (R170, R175) -/

section Rgdef

variable {p : PortId} {i owner kind : Nat} {attr : Byte} {s : State} {r : Region}

theorem doRgdef_of_bad (of : r.owner = ownerOf owner kind attr)
    (bad : ¬(rgdefBytesOk i owner kind attr ∧ r.onPanel ∧ r.fitsField = true)) :
    doRgdef p i owner kind r.left r.top r.width r.height attr s = s.refuse p .range := by
  unfold doRgdef
  rw [← of]
  dsimp only
  split_ifs with bytes kindByte place size
  · rfl
  · rfl
  · rfl
  · rfl
  all_goals exact absurd (rgdef_inRange_iff.mp ⟨bytes, kindByte, place, size⟩) bad

/-- RGDEF past the checks that answer RANGE. -/
theorem doRgdef_of_ok (of : r.owner = ownerOf owner kind attr)
    (ok : rgdefBytesOk i owner kind attr ∧ r.onPanel ∧ r.fitsField = true) :
    doRgdef p i owner kind r.left r.top r.width r.height attr s
      = if s.screen.clashes r then s.refuseState p .overlap
        else if (s.screen.region? i).isSome then s.refuse p .inUse
        else (s.defineRegion i r).respond p .ok 0 [b8 (s.defineRegion i r).screen.regionCount] := by
  obtain ⟨bytes, kindByte, place, size⟩ := rgdef_inRange_iff.mpr ok
  unfold doRgdef
  rw [← of]
  dsimp only
  rw [if_neg bytes, if_neg kindByte, if_neg place, if_neg size]

theorem State.defineRegion_of_auto {k : FieldKind} {a : Attr} (own : r.owner = .auto k a) :
    s.defineRegion i r = { s with
      screen := ({ s.screen with regions := s.screen.regions.setIfInBounds i (some r) } : Screen).render s.hold.banner r a
        (s.fieldText k) } := by
  simp only [State.defineRegion, own]

theorem State.defineRegion_of_port {q : PortId} (own : r.owner = .port q) :
    s.defineRegion i r
      = { s with screen := { s.screen with regions := s.screen.regions.setIfInBounds i (some r) } } := by
  simp only [State.defineRegion, own]

theorem State.regionCount_defineRegion (inside : i ≤ 7) (free : s.screen.region? i = none) (r : Region) :
    (s.defineRegion i r).screen.regionCount = s.screen.regionCount + 1 :=
  (Screen.regionCount_congr (State.regions_defineRegion s i r)).trans (Screen.regionCount_define inside free r)

end Rgdef

/-- The field kind of a field kind byte, as a match on its value. -/
theorem FieldKind.ofCode_eq (n : Nat) :
    FieldKind.ofCode n = match n with | 0 => .progress | 1 => .headA | 2 => .headB | 3 => .magazine | _ => .pull := by
  match n with
  | 0 | 1 | 2 | 3 => rfl
  | n + 4 => simp [FieldKind.ofCode]

/-- The owner of an owner byte in its range, as a match on its value. -/
theorem ownerOf_eq (owner kind : Nat) (attr : Byte) : owner ≤ 4 → ownerOf owner kind attr = match owner with
    | 0 => .port .cc | 1 => .port .ha | 2 => .port .hb | 3 => .port .mh | _ => .auto (.ofCode kind) (.ofByte attr) := by
  intro le
  match owner, le with
  | 0, _ | 1, _ | 2, _ | 3, _ | 4, _ => rfl

/-! ### RGDEL (R171, R174) -/

section Rgdel

variable {p : PortId} {i : Nat} {s : State} {r : Region}

theorem doRgdel_of_bad_index (big : 8 ≤ i) : doRgdel p i s = s.refuse p .range := if_pos big

theorem doRgdel_of_unknown (le : i ≤ 7) (unknown : s.screen.region? i = none) :
    doRgdel p i s = s.refuse p .notFound := by
  rw [doRgdel, if_neg (Nat.not_lt.mpr le), unknown]

theorem doRgdel_removes (le : i ≤ 7) (known : s.screen.region? i = some r) :
    doRgdel p i s
      = { s with
          screen := { s.screen with regions := s.screen.regions.setIfInBounds i none }
          ports := s.ports.map (fun q => Port.cutText q i) }.respond p .ok 0 [b8 r.owner.code, b8 r.owner.kindCode] := by
  rw [doRgdel, if_neg (Nat.not_lt.mpr le), known]

end Rgdel

theorem Screen.index_le_of_region {c : Screen} {i : Nat} {r : Region} (known : c.region? i = some r) : i ≤ 7 := by
  by_contra big
  have outside : c.regions[i]? = none := Vector.getElem?_eq_none (by omega)
  rw [Screen.region?, outside] at known
  exact nomatch known

theorem Owner.kindByte_eq (o : Owner) : b8 o.kindCode = match o with | .auto k _ => b8 k.code | .port _ => 0 := by
  cases o <;> rfl

/-- Settles O49: the checks of both commands in their order. -/
theorem regionCommands : Obligations.RegionCommands := by
  intro s hears
  refine ⟨fun index owner kind left top width height attr => ?define, fun index => ⟨fun big => ?_, fun le unknown => ?_,
    fun r known => ?_⟩⟩
  case define =>
    intro i field a who r bytesOk placeOk fits clash defined
    have named : (⟨left.toNat, top.toNat, width.toNat, height.toNat, ownerOf owner.toNat kind.toNat attr⟩ : Region).owner
        = ownerOf owner.toNat kind.toNat attr := rfl
    refine ⟨fun bad => ?_, fun bytes place size => ?_⟩
    · refine .of_carryOut rfl rfl hears rfl (doRgdef_of_bad named fun ⟨bytes, place, size⟩ => bad ⟨bytes, place, ?_⟩)
      obtain ⟨-, -, -, isKind⟩ := bytes
      exact (Region.fitsField_iff named isKind).mp size
    · obtain ⟨inside, isOwner, bits, isKind⟩ := bytes
      have own : r.owner = ownerOf owner.toNat kind.toNat attr := by
        rw [ownerOf_eq _ _ _ isOwner, FieldKind.ofCode_eq]
        rfl
      have taken := doRgdef_of_ok (p := .cc) (s := s.taking i) own
        ⟨⟨inside, isOwner, bits, isKind⟩, place, (Region.fitsField_iff own isKind).mpr size⟩
      rw [State.taking_screen] at taken
      refine ⟨fun touches => ?_, fun apart used => ?_, fun apart free => ?_⟩
      · rw [if_pos ((Screen.clashes_iff _ _).mpr touches)] at taken
        exact .of_refuseState rfl rfl hears rfl taken
      · rw [if_neg (mt (Screen.clashes_iff _ _).mp apart), if_pos (Option.isSome_iff_ne_none.mpr used)] at taken
        exact .of_carryOut rfl rfl hears rfl taken
      · have free' : (s.taking i).screen.region? index.toNat = none := by rw [State.taking_screen, free]
        rw [if_neg (mt (Screen.clashes_iff _ _).mp apart), free, if_neg (by simp),
          State.regionCount_defineRegion inside free', State.taking_screen] at taken
        refine .of_carryOut rfl rfl hears rfl (taken.trans (congrArg (State.respond · .cc .ok 0 _) ?_))
        by_cases auto : owner.toNat = 4
        · have isAuto : r.owner = .auto field a := by
            rw [own, ownerOf, if_pos auto, FieldKind.ofCode_eq]
            rfl
          rw [State.defineRegion_of_auto isAuto, if_pos auto, State.taking_screen, State.taking_hold, State.taking_fieldText]
        · have isPort : r.owner = .port (ownerPort owner.toNat) := by rw [own, ownerOf, if_neg auto]
          rw [State.defineRegion_of_port isPort, if_neg auto, State.taking_screen]
  · exact .of_carryOut rfl rfl hears rfl (doRgdel_of_bad_index big)
  · exact .of_carryOut rfl rfl hears rfl (doRgdel_of_unknown le (by rw [State.taking_screen, unknown]))
  · have removed := doRgdel_removes (p := .cc) (s := s.taking (.rgdel .cc index)) (Screen.index_le_of_region known)
      (by rw [State.taking_screen, known])
    rw [Owner.kindByte_eq] at removed
    exact .of_carryOut rfl rfl hears rfl removed

end Sys2Proof.Machine
end

section
/-! What the end of an event draws (R175, R180), whatever the regions: the cells of a rendering, the cells of the screen brought up
to date, and the transfer that starts (R181). -/

namespace Sys2Proof.Machine

/-! ### The cells of a rendering (R175) -/

/-- The cell of a text at a row and column: a space where the text has none. -/
def textCell (lines : List (List Byte)) (a : Attr) (y x : Nat) : Cell :=
  { ch := ((lines[y]?.getD [])[x]?).getD 0x20, attr := a }

/-- The stored cells after a row of cells is written from the left. -/
theorem Screen.cell_writeRow (c : Screen) (b : Banner) (row left : Nat) (f : Nat → Cell) (width i j : Nat) :
    ((List.range width).foldl (fun c x => c.write b row (left + x) (f x)) c).cell i j
      = if row = i ∧ (left ≤ j ∧ j < left + width) ∧ row < 20 ∧ j < 48 then f (j - left) else c.cell i j := by
  induction width with
  | zero => rw [if_neg (by omega)]; rfl
  | succ n ih =>
    rw [List.range_succ, List.foldl_append, List.foldl_cons, List.foldl_nil, Screen.cell_write, ih]
    by_cases last : row = i ∧ left + n = j ∧ row < 20 ∧ left + n < 48
    · rw [if_pos last, if_pos (by omega), show j - left = n by omega]
    · rw [if_neg last]
      exact if_congr (by omega) rfl rfl

/-- The stored cells after a rendering: the text in the cells of the region that lie on the panel, the rest as they were. -/
theorem Screen.cell_render (c : Screen) (b : Banner) (r : Region) (a : Attr) (lines : List (List Byte)) (i j : Nat) :
    (c.render b r a lines).cell i j
      = if (r.top ≤ i ∧ i < r.top + r.height) ∧ (r.left ≤ j ∧ j < r.left + r.width) ∧ i < 20 ∧ j < 48
        then textCell lines a (i - r.top) (j - r.left) else c.cell i j := by
  unfold Screen.render
  generalize r.height = height
  induction height with
  | zero => rw [if_neg (by omega)]; rfl
  | succ n ih =>
    rw [List.range_succ, List.foldl_append, List.foldl_cons, List.foldl_nil]
    refine (Screen.cell_writeRow _ b (r.top + n) r.left
      (fun x => { ch := (lines.getD n []).getD x 0x20, attr := a }) r.width i j).trans ?_
    rw [ih]
    by_cases last : r.top + n = i ∧ (r.left ≤ j ∧ j < r.left + r.width) ∧ r.top + n < 20 ∧ j < 48
    · rw [if_pos last, if_pos (by omega), show i - r.top = n by omega]
      simp only [textCell, List.getD_eq_getElem?_getD]
    · rw [if_neg last]
      exact if_congr (by omega) rfl rfl

theorem Screen.cell_render_inside (c : Screen) (b : Banner) {r : Region} (a : Attr) (lines : List (List Byte)) {y x : Nat}
    (inColumns : r.left + r.width ≤ 48) (inRows : r.top + r.height ≤ 20) (hy : y < r.height) (hx : x < r.width) :
    (c.render b r a lines).cell (r.top + y) (r.left + x) = textCell lines a y x := by
  rw [Screen.cell_render, if_pos (by omega), Nat.add_sub_cancel_left, Nat.add_sub_cancel_left]

theorem Screen.cell_render_outside (c : Screen) (b : Banner) {r : Region} (a : Attr) (lines : List (List Byte))
    {row col : Nat} (outside : ¬r.covers row col) : (c.render b r a lines).cell row col = c.cell row col := by
  rw [Screen.cell_render, if_neg]
  rintro ⟨⟨h1, h2⟩, ⟨h3, h4⟩, -⟩
  exact outside ⟨h1, h2, h3, h4⟩

/-! ### Dirty rows stay dirty (R180) -/

theorem Screen.dirty_write_of_dirty {c : Screen} {y : Fin 20} (dirty : c.dirty[y] = true) (b : Banner) (row col : Nat)
    (x : Cell) : (c.write b row col x).dirty[y] = true := by
  rw [Screen.dirty_write, dirty, Bool.true_or]

theorem Screen.dirty_refresh_of_dirty {c : Screen} {y : Fin 20} (dirty : c.dirty[y] = true) (b : Banner) (old new : State)
    (r : Option Region) : (c.refresh b old new r).dirty[y] = true := by
  unfold Screen.refresh
  split
  · split
    · exact dirty
    · refine List.foldlRecOn (motive := fun c : Screen => c.dirty[y] = true) _ _ dirty fun c dirty _ _ => ?_
      exact List.foldlRecOn (motive := fun c : Screen => c.dirty[y] = true) _ _ dirty fun c dirty _ _ =>
        Screen.dirty_write_of_dirty dirty b _ _ _
  · exact dirty

/-- A change of the banner leaves rows 0 and 1 dirty. -/
theorem State.dirty_redraw_of_banner {old new : State} (changed : old.hold.banner ≠ new.hold.banner) {row : Fin 20}
    (top : row.val < 2) : (old.redraw new).dirty[row] = true := by
  rw [State.redraw, if_neg changed]
  exact List.foldlRecOn (motive := fun c : Screen => c.dirty[row] = true) _ _
    ((Screen.dirty_banner _ row).mpr (.inr top)) fun c dirty r _ => Screen.dirty_refresh_of_dirty dirty _ _ _ r

/-! ### The cells of the screen brought up to date (R175) -/

theorem Screen.refresh_of_changed {old new : State} {r : Region} {k : FieldKind} {a : Attr} (owner : r.owner = .auto k a)
    (changed : old.fieldText k ≠ new.fieldText k) (c : Screen) (b : Banner) :
    c.refresh b old new (some r) = c.render b r a (new.fieldText k) := by
  obtain ⟨left, top, width, height, o⟩ := r
  cases owner
  exact if_neg changed

/-- Bringing a region up to date changes no cell where it is drawn into none. -/
theorem Screen.cell_refresh_outside {old new : State} {o : Option Region} {row col : Nat}
    (outside : ¬redrawn old new [o] row col) (c : Screen) (b : Banner) :
    (c.refresh b old new o).cell row col = c.cell row col := by
  unfold Screen.refresh
  split
  · rename_i l t w h k a
    split
    · rfl
    · rename_i changed
      refine Screen.cell_render_outside _ _ _ _ fun covers => outside ?_
      exact ⟨⟨l, t, w, h, .auto k a⟩, k, a, List.mem_singleton.mpr rfl, rfl, changed, covers⟩
  · rfl

theorem State.cell_redraw_outside {old new : State} {row col : Nat}
    (outside : ¬redrawn old new new.screen.regions.toList row col) :
    (old.redraw new).cell row col = new.screen.cell row col := by
  refine List.foldlRecOn (motive := fun c : Screen => c.cell row col = new.screen.cell row col) _ _ ?_ fun c same o mem => ?_
  · split <;> rfl
  · rw [Screen.cell_refresh_outside _ c, same]
    rintro ⟨r, k, a, only, drawn⟩
    exact outside ⟨r, k, a, List.mem_singleton.mp only ▸ mem, drawn⟩

/-- Regions that meet the region law cover a cell once. -/
theorem State.regionLaw.covers_unique {s : State} (law : s.regionLaw) {r q : Region} {row col : Nat}
    (hr : some r ∈ s.screen.regions.toList) (hq : some q ∈ s.screen.regions.toList) (inR : r.covers row col)
    (inQ : q.covers row col) : q = r := by
  obtain ⟨i, at_i⟩ := (s.screen.mem_regions r).mp hr
  obtain ⟨j, at_j⟩ := (s.screen.mem_regions q).mp hq
  by_cases same : i = j
  · subst same
    exact Option.some.inj (at_j.symm.trans at_i)
  · have apart := law.2 i j r q same at_i at_j
    simp only [Region.overlaps, decide_eq_false_iff_not] at apart
    obtain ⟨r1, r2, r3, r4⟩ := inR
    obtain ⟨q1, q2, q3, q4⟩ := inQ
    exact absurd ⟨by omega, by omega, by omega, by omega⟩ apart

/-- A region whose field's text changed shows the new text, for no other region is drawn into its cells. -/
theorem State.cell_redraw_inside {old new : State} (law : new.regionLaw) {r : Region} {k : FieldKind} {a : Attr}
    (mem : some r ∈ new.screen.regions.toList) (owner : r.owner = .auto k a)
    (changed : old.fieldText k ≠ new.fieldText k) {y x : Nat} (hy : y < r.height) (hx : x < r.width) :
    (old.redraw new).cell (r.top + y) (r.left + x) = textCell (new.fieldText k) a y x := by
  have covers : r.covers (r.top + y) (r.left + x) := ⟨by omega, by omega, by omega, by omega⟩
  obtain ⟨i, known⟩ := (new.screen.mem_regions r).mp mem
  obtain ⟨-, -, inColumns, inRows⟩ := law.1 i r known
  have drawn (c : Screen) (b : Banner) :
      (c.refresh b old new (some r)).cell (r.top + y) (r.left + x) = textCell (new.fieldText k) a y x := by
    rw [Screen.refresh_of_changed owner changed]
    exact Screen.cell_render_inside c b a _ inColumns inRows hy hx
  obtain ⟨before, after, whole⟩ := List.append_of_mem mem
  rw [State.redraw, whole, List.foldl_append, List.foldl_cons]
  refine List.foldlRecOn (motive := fun c : Screen => c.cell (r.top + y) (r.left + x) = _) _ _ (drawn _ _)
    fun c shown o later => ?_
  by_cases again : redrawn old new [o] (r.top + y) (r.left + x)
  · obtain ⟨q, k', a', only, -, -, inQ⟩ := again
    obtain rfl := List.mem_singleton.mp only
    have listed : some q ∈ new.screen.regions.toList := by
      rw [whole]
      exact List.mem_append_right _ (List.mem_cons_of_mem _ later)
    rw [law.covers_unique mem listed covers inQ]
    exact drawn _ _
  · rw [Screen.cell_refresh_outside again, shown]

/-! ### The end of an event -/

theorem Screen.cells_load (c : Screen) : c.load.cells = c.cells := by
  unfold Screen.load
  split <;> rfl

theorem Screen.cells_pass (c : Screen) : c.pass.cells = c.cells := by
  unfold Screen.pass
  split <;> rfl

theorem Screen.cells_kick (c : Screen) (b : Banner) : (c.kick b).cells = c.cells := by
  unfold Screen.kick
  split
  · split
    · rw [Screen.startRow, Screen.cells_load, Screen.cells_pass, Screen.cells_load]
    · rfl
  · rfl

theorem State.cell_finish (old new : State) (row col : Nat) :
    (old.finish new).screen.cell row col = (old.redraw new).cell row col := by
  unfold State.finish
  dsimp only
  split
  · rfl
  · simp only [Screen.cell, Screen.cells_kick]

/-- Every AUTO region shows the text that its field has in this state. -/
def Screen.shows (c : Screen) (t : State) : Prop :=
  ∀ i r k a, c.region? i = some r → r.owner = .auto k a →
    ∀ y x, y < r.height → x < r.width → c.cell (r.top + y) (r.left + x) = textCell (t.fieldText k) a y x

theorem State.shows_finish {old new : State} (law : new.regionLaw) (shown : new.screen.shows old) :
    (old.finish new).screen.shows new := by
  intro i r k a known owner y x hy hx
  have known' : new.screen.region? i = some r := by
    simpa only [Screen.region?, State.regions_finish] using known
  have mem : some r ∈ new.screen.regions.toList := (new.screen.mem_regions r).mpr ⟨i, known'⟩
  rw [State.cell_finish]
  by_cases same : old.fieldText k = new.fieldText k
  · rw [State.cell_redraw_outside, shown i r k a known' owner y x hy hx, same]
    rintro ⟨q, k', a', listed, other, changed, covers⟩
    obtain rfl := law.covers_unique mem listed ⟨by omega, by omega, by omega, by omega⟩ covers
    cases owner.symm.trans other
    exact changed same
  · exact State.cell_redraw_inside law mem owner same hy hx

/-! #### The transfer that starts (R181) -/

/-- The event changed the dirty set while PNLRDY is active and the transmitter IDLE. -/
def State.mayStart (old : State) (c : Screen) : Prop := c.pnlrdy = true ∧ c.tx = none ∧ c.dirty ≠ old.screen.dirty

theorem State.finish_starts {old new : State} (idle : old.mayStart (old.redraw new)) {row : Fin 20}
    (dirty : (old.redraw new).dirty[row] = true) (low : ∀ r : Fin 20, r < row → (old.redraw new).dirty[r] = false) :
    old.finish new = { new with screen := (old.redraw new).startRow new.hold.banner row.val } := by
  obtain ⟨active, empty, changed⟩ := idle
  rw [State.finish]
  rw [if_neg changed, Screen.kick_of_idle active empty (Screen.lowestDirty_eq _ row dirty low)]

theorem State.finish_of_no_start {old new : State}
    (quiet : ¬(old.mayStart (old.redraw new) ∧ ∃ row : Fin 20, (old.redraw new).dirty[row] = true)) :
    old.finish new = { new with screen := old.redraw new } := by
  rw [State.finish]
  split
  · rfl
  · rename_i changed
    by_cases busy : (old.redraw new).pnlrdy = false ∨ (old.redraw new).tx ≠ none
    · rw [Screen.kick_of_not_idle busy]
    · rw [not_or, Bool.not_eq_false, not_not] at busy
      obtain ⟨active, empty⟩ := busy
      have clean (row : Fin 20) : (old.redraw new).dirty[row] = false :=
        Bool.eq_false_iff.mpr fun dirty => quiet ⟨⟨active, empty, changed⟩, row, dirty⟩
      rw [Screen.kick_of_clean (Screen.lowestDirty_none _ clean)]

end Sys2Proof.Machine
end

section
/-! The texts of the fields (R175 to R178), numbers in decimal and in hexadecimal, the banner (R168, R179), and the statement about
the end of an event. -/

namespace Sys2Proof.Machine

/-! ### Numbers (R175, R176) -/

theorem toNat_b8 {n : Nat} (small : n < 256) : (b8 n).toNat = n := by
  rw [b8, BitVec.toNat_ofNat, Nat.mod_eq_of_lt small]

/-- The digits of a positive number are Mathlib's. -/
theorem digitsRev_eq_digits {k : Nat} : ∀ {n : Nat}, 0 < n → n < 10 ^ k → digitsRev k n = Nat.digits 10 n := by
  induction k with
  | zero => intro n positive small; omega
  | succ k ih =>
    intro n positive small
    rw [digitsRev, Nat.digits_def' (by omega) positive]
    by_cases one : n < 10
    · rw [if_pos one, Nat.div_eq_of_lt one, Nat.digits_zero]
    · rw [if_neg one, ih (by omega) (by rw [pow_succ] at small; omega)]

section Decimal

variable {n : Nat} (positive : 0 < n) (small : n < 10 ^ 10)
include positive small

theorem decimal_eq_digits : decimal n = ((Nat.digits 10 n).map (fun d => b8 (48 + d))).reverse := by
  rw [decimal, digitsRev_eq_digits positive small, List.map_reverse]

theorem decimal_digit {d : Byte} (mem : d ∈ decimal n) : 48 ≤ d.toNat ∧ d.toNat ≤ 57 := by
  rw [decimal_eq_digits positive small, List.mem_reverse, List.mem_map] at mem
  obtain ⟨digit, mem, rfl⟩ := mem
  have lt : digit < 10 := Nat.digits_lt_base (by omega) mem
  rw [toNat_b8 (by omega)]
  omega

theorem decimal_value : (decimal n).foldl (fun k d => 10 * k + (d.toNat - 48)) 0 = n := by
  have digit : ∀ d ∈ Nat.digits 10 n, ∀ k, 10 * k + ((b8 (48 + d)).toNat - 48) = d + 10 * k := by
    intro d mem k
    have lt : d < 10 := Nat.digits_lt_base (by omega) mem
    rw [toNat_b8 (by omega)]
    omega
  calc (decimal n).foldl (fun k d => 10 * k + (d.toNat - 48)) 0
    _ = (Nat.digits 10 n).foldr (fun d k => 10 * k + ((b8 (48 + d)).toNat - 48)) 0 := by
      rw [decimal_eq_digits positive small, List.foldl_reverse, List.foldr_map]
    _ = (Nat.digits 10 n).foldr (fun d k => d + 10 * k) 0 := List.foldr_ext _ _ _ digit
    _ = Nat.ofDigits 10 (Nat.digits 10 n) := (Nat.ofDigits_eq_foldr 10 _).symm
    _ = n := Nat.ofDigits_digits 10 n

theorem decimal_head_ne_zero : (decimal n).head? ≠ some 48 := by
  have some_ : Nat.digits 10 n ≠ [] := Nat.digits_ne_nil_iff_ne_zero.mpr (by omega)
  have leading := Nat.getLast_digit_ne_zero 10 (m := n) (by omega)
  have lt : (Nat.digits 10 n).getLast some_ < 10 := Nat.digits_lt_base (by omega) (List.getLast_mem some_)
  rw [decimal_eq_digits positive small, List.head?_reverse, List.getLast?_map, List.getLast?_eq_getLast_of_ne_nil some_]
  intro zero
  have same := congrArg BitVec.toNat (Option.some.inj zero)
  rw [toNat_b8 (by omega)] at same
  have code : (48 : Byte).toNat = 48 := rfl
  omega

end Decimal

theorem decimal_zero : decimal 0 = [48] := rfl

/-- The decimal digits of a number: each is a digit, together they are the number, and there is no leading zero (R175). -/
theorem decimal_spec {n : Nat} (small : n < 10 ^ 10) :
    (∀ d ∈ decimal n, 48 ≤ d.toNat ∧ d.toNat ≤ 57) ∧ (decimal n).foldl (fun k d => 10 * k + (d.toNat - 48)) 0 = n
      ∧ decimal n ≠ [] ∧ ((decimal n).head? = some 48 → decimal n = [48]) := by
  by_cases zero : n = 0
  · subst zero
    rw [decimal_zero]
    decide
  · have positive : 0 < n := by omega
    refine ⟨fun d => decimal_digit positive small, decimal_value positive small, fun empty => ?_, fun zero => ?_⟩
    · have value := decimal_value positive small
      rw [empty] at value
      exact zero value.symm
    · exact absurd zero (decimal_head_ne_zero positive small)

/-- The hexadecimal digits of a serial, the most significant first (R176). -/
theorem hex8_digit (n : Nat) {i : Nat} (inside : i < 8) :
    (hex8 n)[i]? = some (b8 (if n / 16 ^ (7 - i) % 16 < 10 then 48 + n / 16 ^ (7 - i) % 16
      else 65 + (n / 16 ^ (7 - i) % 16 - 10))) := by
  have digit : ∀ d, b8 (if d < 10 then 48 + d else 65 + (d - 10)) = hexDigit d := by
    intro d
    unfold hexDigit
    split_ifs with decimal
    · rfl
    · rw [show 65 + (d - 10) = 55 + d by omega]
  rw [digit]
  match i, inside with
  | 0, _ | 1, _ | 2, _ | 3, _ | 4, _ | 5, _ | 6, _ | 7, _ => rfl

/-! ### The fields (R176 to R178) -/

theorem State.fieldText_progress_waiting {s : State} {r : StripRecord} (zone : s.tracker.zone = some r)
    (waiting : r.binding = .waiting) :
    s.fieldText .progress = [textOf "STRIP " ++ hex8 r.serial.toNat ++ textOf " WAIT", textOf "NO PROGRAM"] := by
  simp only [State.fieldText, progressText, zone, waiting]

theorem State.fieldText_progress_bound {s : State} {r : StripRecord} {i : Nat} {m : StripMap} {q : Program}
    (zone : s.tracker.zone = some r) (bound : r.binding = .bound i) (map : s.map = some m) (slot : s.program? i = some q) :
    s.fieldText .progress
      = [textOf "STRIP " ++ hex8 r.serial.toNat ++ textOf " P" ++ decimal i,
         textOf "DONE " ++ decimal (m.totals.closed + m.totals.skipped) ++ textOf "/" ++ decimal (q.units * q.wires)
           ++ textOf " U " ++ decimal m.unitsFinished ++ textOf "/" ++ decimal q.units] := by
  simp only [State.fieldText, progressText, zone, bound, map, slot, Option.map_some, Option.getD_some]

theorem FeedState.word_eq (f : FeedState) :
    f.word = textOf (match f with
      | .off => "OFF" | .running => "RUN" | .stopped .fail => "STOP FAIL" | .stopped .touch => "STOP TOUCH") := by
  match f with
  | .off | .running | .stopped .fail | .stopped .touch => rfl

theorem Verdict.word_eq (v : Verdict) :
    v.word = textOf (match v with
      | .good => "GOOD" | .marginal => "MARGINAL" | .unjudged => "UNJUDGED" | .fail => "FAIL") := by
  cases v <;> rfl

/-- The letter of a position is shown while a strip is there (R178). -/
theorem positionLetter_eq {α : Type} [DecidableEq α] (o : Option α) (letter : String) :
    (if o.isSome then letter else "-") = if o = none then "-" else letter := by
  cases o <;> rfl

/-- The records that are neither PENDING nor TESTING (R178). -/
theorem PullRecord.not_open_eq (r : PullRecord) : (!r.open?) = (r.state != .pending && r.state != .testing) := by
  simp only [PullRecord.open?, Bool.not_or, bne]

/-! ### The banner (R168, R179) -/

section Banner

variable {s : State} {row : Nat}

theorem State.displayed_below (below : 2 ≤ row) (col : Nat) :
    s.screen.displayed s.hold.banner row col = s.screen.cell row col :=
  if_neg fun shown => Nat.not_lt.mpr below shown.2

theorem State.displayed_of_none (none_ : s.hold.banner = .none) (col : Nat) :
    s.screen.displayed s.hold.banner row col = s.screen.cell row col :=
  if_neg fun shown => shown.1 none_

theorem State.displayed_banner {b : Banner} (banner : s.hold.banner = b) (shown : b ≠ .none) (top : row < 2) (col : Nat) :
    s.screen.displayed s.hold.banner row col = { ch := (b.text row).getD col 0x20, attr := b.attr } := by
  rw [banner]
  exact if_pos ⟨shown, top⟩

end Banner

theorem Hold.banner_of_held {h : Hold} (held : h.reasons ≠ .empty) : h.banner = .held h.reasons := if_pos held

theorem Hold.banner_of_ready {h : Hold} (free : h.reasons = .empty) (off : h.enable = false) : h.banner = .ready := by
  simp [Hold.banner, free, off]

theorem Hold.banner_of_enabled {h : Hold} (free : h.reasons = .empty) (on : h.enable = true) : h.banner = .none := by
  simp [Hold.banner, free, on]

/-- Settles O2: the drawing cell by cell, the transfer that starts by the transmitter, the texts word by word. -/
theorem eventEndAndRendering : Obligations.EventEndAndRendering := by
  refine ⟨fun old new => ⟨⟨_, State.finish_eq old new⟩, fun hb ht hd => State.finish_self hb ht hd, fun changed _ off => ?banner,
      State.shows_finish⟩, ?redraw, fun c b r a lines inColumns inRows => ?render,
    ⟨fun n => decimal_spec, fun n => ⟨rfl, fun i => hex8_digit n⟩⟩, ?texts⟩
  case banner =>
    have quiet : (old.redraw new).pnlrdy = false := (State.sameLine_redraw old new).pnlrdy.trans off
    rw [State.finish_of_no_start fun ⟨⟨active, _⟩, _⟩ => absurd (active.symm.trans quiet) nofun]
    exact ⟨State.dirty_redraw_of_banner changed (row := 0) (by decide),
      State.dirty_redraw_of_banner changed (row := 1) (by decide)⟩
  case redraw =>
    intro old new b c captured idle
    have line := State.sameLine_redraw old new
    have regions := State.regions_redraw old new
    refine ⟨⟨regions, line.pnlrdy, line.tx, line.holding, line.shift⟩, fun row col apart => ?_,
      fun law row => State.dirty_redraw old new law row,
      fun row isIdle empty dirty low => ⟨fun shift => ?_, fun shift => ?_⟩, State.finish_of_no_start⟩
    · refine State.cell_redraw_outside ?_
      rintro ⟨r, k, a, mem, owner, changed, covers⟩
      obtain ⟨i, known⟩ := (new.screen.mem_regions r).mp mem
      have known' : c.region? i = some r := by rw [← known, Screen.region?, regions, Screen.region?]
      exact apart i r k a known' owner changed covers
    · rw [State.finish_starts isIdle dirty low, Screen.startRow_empty _ _ _ shift empty]
      rfl
    · obtain ⟨x, sending⟩ := Option.ne_none_iff_exists'.mp shift
      rw [State.finish_starts isIdle dirty low, Screen.startRow_behind _ _ _ x sending empty]
      rfl
  case render =>
    have draws := Screen.draws_render c b r a lines inColumns inRows
    exact ⟨fun y x hy hx => Screen.cell_render_inside c b a lines inColumns inRows hy hx, draws.cell, draws.dirty,
      draws.regions, draws.tx, draws.pnlrdy, draws.holding, draws.shift⟩
  case texts =>
    intro s text
    refine ⟨fun zone => ?_, fun r zone waiting => State.fieldText_progress_waiting zone waiting,
      fun r i m q zone bound map slot => State.fieldText_progress_bound zone bound map slot, fun h => ?head, ?magazine, ?pull,
      fun row col top => ⟨fun held => ?_, fun free off => ?_, fun free on => ?_⟩,
      fun row col below => State.displayed_below below col⟩
    case head =>
      cases h <;> simp only [State.fieldText, headText, FeedState.word_eq, Verdict.word_eq] <;> rfl
    case magazine =>
      simp only [State.fieldText, magazineText, positionLetter_eq]
      rfl
    case pull =>
      simp only [State.fieldText, pullText, PullRecord.not_open_eq]
      rfl
    · simp only [State.fieldText, progressText, zone]
      rfl
    · rw [State.displayed_banner (Hold.banner_of_held held) nofun top, List.getD_eq_getElem?_getD]
      rfl
    · rw [State.displayed_banner (Hold.banner_of_ready free off) nofun top, List.getD_eq_getElem?_getD]
      rfl
    · exact State.displayed_of_none (Hold.banner_of_enabled free on) col

end Sys2Proof.Machine
end

section
/-! The queue of commands, and a command on its port (R184, R186 to R188): the refusal ROLE, what a command byte ends and what it
begins. -/

namespace Sys2Proof.Machine

/-! ### The queue -/

theorem step_cons (s : State) (c : Instr) (rest : List Instr) :
    step { s with pending := c :: rest } = exec c { s with pending := rest } := rfl

theorem step_nil (s : State) : step { s with pending := [] } = .next { s with pending := [] } := rfl

/-- Settles O1. -/
theorem stepTakesFrontCommand : Obligations.StepTakesFrontCommand := fun s => ⟨step_cons s, step_nil s⟩

/-! ### The role of a port and its clock (R184, R186, R188) -/

section Command

variable {i : Instr} {p : PortId} {c : Cmd} {s : State} (hc : i.command? = some (p, c))
include hc

theorem State.taking_of_command : s.taking i = s.setPort p ((s.port p).atTaking c (paramBytes i)) := by
  simp only [State.taking, hc]

theorem portOf_of_command : portOf i = p := by
  simp only [portOf, hc, Option.map_some, Option.getD_some]

/-- The row on a port that takes its clock. -/
theorem exec_of_hears (h : s.hears p) :
    exec i s = .next (s.finish ((s.setPort p ((s.port p).atTaking c (paramBytes i))).takeAtomic p c
      (carryOut c p (paramBytes i)))) := by
  rw [exec_command hc, State.atomicRow, if_neg (Bool.eq_false_iff.mp h)]

/-- The row on a port that ignores its clock (R184). -/
theorem exec_of_ignoring (deaf : (s.port p).ignoring = true) : exec i s = .next s := by
  rw [exec_command hc, State.atomicRow, if_pos deaf, State.finish_same]

/-- The row on a port whose role does not accept the command (R186, R188). -/
theorem Refuses.of_role (h : s.hears p) (other : p.accepts c = false) : Refuses i s .role 0 := by
  rw [Refuses, Answers, exec_of_hears hc h, State.takeAtomic, if_neg (Bool.eq_false_iff.mp other),
    portOf_of_command hc, State.taking_of_command hc]
  rfl

end Command

/-- Settles O5: the role is checked at the taking, the clock before it. -/
theorem portTakesItsOwnCommands : Obligations.PortTakesItsOwnCommands :=
  fun _ _ _ _ hc => ⟨Refuses.of_role hc, exec_of_ignoring hc⟩

/-! ### What a command byte ends (R187) -/

theorem Port.collects_iff (q : Port) (c : Cmd) (bytes : List Byte) :
    q.collects c bytes = true ↔
      ∃ received, q.framing = .params c received ∧ received.isPrefixOf bytes = true ∧ received.length < bytes.length := by
  unfold Port.collects
  split
  · next c' received collecting =>
    rw [collecting, Bool.and_eq_true, Bool.and_eq_true, beq_iff_eq, decide_eq_true_eq]
    constructor
    · rintro ⟨⟨rfl, begun⟩, short⟩
      exact ⟨received, rfl, begun, short⟩
    · rintro ⟨_, same, begun, short⟩
      cases same
      exact ⟨⟨rfl, begun⟩, short⟩
  · next other =>
    exact ⟨nofun, fun ⟨received, collecting, _⟩ => absurd collecting (other c received)⟩

theorem Port.collects_eq_false_iff (q : Port) (c : Cmd) (bytes : List Byte) :
    q.collects c bytes = false ↔
      ∀ received, q.framing = .params c received →
        ¬(received.isPrefixOf bytes = true ∧ received.length < bytes.length) := by
  rw [← Bool.not_eq_true, q.collects_iff]
  exact ⟨fun none_ received collecting begun => none_ ⟨received, collecting, begun⟩,
    fun none_ ⟨received, collecting, begun⟩ => none_ received collecting begun⟩

/-- The port when the last parameter byte of the command it collects completes: data out carries 00h, and nothing ends. -/
def Port.complete (q : Port) : Port := { q with dataOut := 0, unfinished := none, framing := .idle }

theorem Port.atTaking_of_collects {q : Port} {c : Cmd} {bytes : List Byte} (collecting : q.collects c bytes = true) :
    q.atTaking c bytes = q.complete := by
  have some_ : bytes.isEmpty = false := by
    obtain ⟨received, -, -, short⟩ := (q.collects_iff c bytes).mp collecting
    cases bytes with
    | nil => nomatch short
    | cons => rfl
  simp [Port.atTaking, some_, collecting, Port.complete]

theorem Port.atTaking_nil (q : Port) (c : Cmd) : q.atTaking c [] = q.commandByte := rfl

theorem Port.atTaking_of_not_collects {q : Port} {c : Cmd} {bytes : List Byte} (some_ : bytes ≠ [])
    (idle : q.collects c bytes = false) : q.atTaking c bytes = q.commandByte.complete := by
  simp [Port.atTaking, some_, idle, Port.complete, Port.commandByte]

/-- A command that a port does not collect ends on its command byte what the port was doing. -/
theorem Port.atTaking_previous {q : Port} {c : Cmd} {bytes : List Byte} (idle : q.collects c bytes = false) :
    (q.atTaking c bytes).previous = q.commandByte.previous := by
  cases bytes with
  | nil => rfl
  | cons => rw [Port.atTaking_of_not_collects (List.cons_ne_nil _ _) idle, Port.complete]

/-- The taking of a command changes the framing, the previous-result and the byte in progress of its port only. -/
theorem Port.atTaking_frame (q : Port) (c : Cmd) (bytes : List Byte) :
    (q.atTaking c bytes).framing = .idle ∧ (q.atTaking c bytes).queue = q.queue ∧ (q.atTaking c bytes).lost = q.lost
      ∧ (q.atTaking c bytes).unfinished = none ∧ (q.atTaking c bytes).ignoring = q.ignoring := by
  unfold Port.atTaking
  split
  · exact ⟨rfl, rfl, rfl, rfl, rfl⟩
  · split <;> exact ⟨rfl, rfl, rfl, rfl, rfl⟩

theorem Port.previous_commandByte (q : Port) :
    q.commandByte.previous = if q.framing.cutShort then .format else q.previous := rfl

/-! ### What a command byte begins (R187) -/

theorem Port.startCommand_params (q : Port) (p : PortId) {c : Cmd} (notWtxt : c ≠ .wtxt) (notPwire : c ≠ .pwire) :
    q.startCommand p c = { q.commandByte with framing := .params c [] } := by
  have framing : commandFraming p c = .params c [] := by
    unfold commandFraming
    split
    · exact absurd rfl notWtxt
    · exact absurd rfl notPwire
    · rfl
  rw [Port.startCommand, framing, if_neg fun pwire => notPwire pwire.1]

theorem Port.startCommand_wtxt (q : Port) (p : PortId) :
    q.startCommand p .wtxt = { q.commandByte with framing := .wtxtHeader [] } := rfl

theorem Port.startCommand_pwire (q : Port) :
    q.startCommand .cc .pwire = { q.commandByte with framing := .pwireSlot } := rfl

theorem Port.startCommand_pwire_of_role (q : Port) {p : PortId} (other : p ≠ .cc) :
    q.startCommand p .pwire = { q.commandByte with previous := .role, framing := .ignore } := by
  simp [Port.startCommand, commandFraming, other]

section CommandByte

variable {s : State} {p : PortId} (h : s.hears p)
include h

theorem State.commandByte_of_hears (c : Cmd) : s.commandByte p c = s.setPort p ((s.port p).startCommand p c) :=
  if_neg (Bool.eq_false_iff.mp h)

theorem exec_commandByte {c : Cmd} (more : c.takenAtOnce = false) :
    exec (.commandByte p c) s = .next (s.setPort p ((s.port p).startCommand p c)) := by
  have row : exec (.commandByte p c) s = .next (s.finish (s.commandByte p c)) := if_neg (Bool.eq_false_iff.mp more)
  rw [row, State.commandByte_of_hears h, State.finish_setPort]

theorem exec_unknownCommand {v : Byte} (unknown : Cmd.ofCode v = none) :
    exec (.unknownCommand p v) s = .next (s.finish (s.unknownCommand p)) := by
  show execUnknownCommand p v s = _
  rw [execUnknownCommand, unknown, Option.isSome_none, if_neg Bool.false_ne_true, if_neg (Bool.eq_false_iff.mp h)]

end CommandByte

theorem State.unknownCommand_eq (s : State) (p : PortId) :
    s.unknownCommand p = s.setPort p { (s.port p).commandByte with framing := .response [0x01, 0x00] } := by
  rw [State.unknownCommand, State.refuse, State.respond, State.port_setPort_self, State.setPort_setPort]
  rfl

/-- Settles O6: the taking by whether the port collects the command, the command bytes by the framing they lead to. -/
theorem commandBytesEndAndBegin : Obligations.CommandBytesEndAndBegin := by
  refine ⟨fun q c bs => ?taking, fun p s h => ⟨fun c more notWtxt notPwire => ?_, ?_, ?_, fun other => ?_,
    fun v unknown => ?_⟩⟩
  case taking =>
    obtain ⟨framing, queue, lost, unfinished, ignoring⟩ := q.atTaking_frame c bs
    refine ⟨framing, queue, lost, unfinished, ignoring, fun received collecting begun short => ?_, fun idle => ?_⟩
    · rw [Port.atTaking_of_collects ((q.collects_iff c bs).mpr ⟨received, collecting, begun, short⟩), Port.complete]
    · rw [Port.atTaking_previous ((q.collects_eq_false_iff c bs).mpr idle), q.previous_commandByte]
      cases q.framing with
      | pwireGroups _ received => cases received <;> rfl
      | _ => rfl
  · rw [exec_commandByte h more, Port.startCommand_params _ _ notWtxt notPwire]
  · exact exec_commandByte h rfl
  · rintro rfl
    exact exec_commandByte h rfl
  · rw [exec_commandByte h rfl, Port.startCommand_pwire_of_role _ other]
  · rw [exec_unknownCommand h unknown, State.unknownCommand_eq, State.finish_setPort]

end Sys2Proof.Machine
end

section
/-! The bytes and the clock edges of a port (R184, R185, R189): a readout byte, a release of select, and eight edges that do what
the row of a byte does. -/

namespace Sys2Proof.Machine

/-! ### Parameter bytes -/

section ReadoutByte

variable {s : State} {p : PortId} (h : s.hears p)
include h

/-- A parameter byte on a port with an unread response byte shifts it out and consumes it (R189). -/
theorem State.byteEvent_response {b : Byte} {rest : List Byte} (unread : (s.port p).framing = .response (b :: rest))
    (d : Byte) :
    s.byteEvent p d
      = s.setPort p { s.port p with framing := .response rest, dataOut := b, unfinished := none } := by
  rw [State.byteEvent_of_hears h]
  simp [State.paramByte, unread, Port.outByte, State.finish_setPort]

/-- A parameter byte on a port that waits, or has nothing left to answer, changes data out only (R189). -/
theorem State.byteEvent_quiet (quiet : (s.port p).framing = .response [] ∨ (s.port p).framing = .idle
      ∨ (s.port p).framing = .ignore ∨ (s.port p).framing = .waiting) (d : Byte) :
    s.byteEvent p d = s.setPort p { s.port p with dataOut := (s.port p).outByte, unfinished := none } := by
  rw [State.byteEvent_of_hears h]
  rcases quiet with e | e | e | e <;> simp [State.paramByte, e, State.finish_setPort]

end ReadoutByte

theorem Port.fixedOut_of_fresh {q : Port} (fresh : q.unfinished = none) : q.fixedOut = q.outByte :=
  if_neg (by rw [fresh]; nofun)

theorem Port.fixedOut_of_begun {q : Port} (begun : q.unfinished ≠ none) : q.fixedOut = q.dataOut :=
  if_pos (Option.isSome_iff_ne_none.mpr begun)

theorem Port.outByte_of_waiting {q : Port} (waiting : q.framing = .waiting) : q.outByte = 0xFF := by
  simp only [Port.outByte, waiting]

theorem Port.outByte_of_quiet {q : Port} (quiet : q.framing = .response [] ∨ q.framing = .idle ∨ q.framing = .ignore) :
    q.outByte = 0x00 := by
  rcases quiet with e | e | e <;> simp only [Port.outByte, e]

/-! ### Select (R184, R185) -/

theorem exec_selectRelease (s : State) (p : PortId) {bits : Nat} (le : bits ≤ 7) :
    exec (.selectRelease p bits) s = .next (s.setPort p ((s.port p).release bits)) := by
  show execSelectRelease p bits s = _
  rw [execSelectRelease, if_neg (Nat.not_lt.mpr le), State.finish_setPort]

/-- The bits of a byte in progress are discarded, and data out is as fixed at their first clock (R185, R189). -/
theorem Port.release_received {q : Port} (hears : q.ignoring = false) (fresh : q.unfinished = none) (bits : List Bool) {n : Nat}
    (some_ : 1 ≤ n) : (q.received bits).release n = q.release n := by
  have clocked : n ≠ 0 := Nat.one_le_iff_ne_zero.mp some_
  simp [Port.release, Port.received, Port.fixedOut, hears, fresh, clocked]

/-! ### Whole bytes -/

/-- The port with any byte on data out and any byte in progress. -/
def Port.clocked (q : Port) (out : Byte) (u : Option UnfinishedByte) : Port := { q with dataOut := out, unfinished := u }

theorem Port.commandByte_clocked (q : Port) (out : Byte) (u : Option UnfinishedByte) :
    (q.clocked out u).commandByte = q.commandByte := rfl

theorem Port.startCommand_clocked (q : Port) (out : Byte) (u : Option UnfinishedByte) (p : PortId) (c : Cmd) :
    (q.clocked out u).startCommand p c = q.startCommand p c := rfl

section WholeByte

variable {s : State} {p : PortId} (h : s.hears p) (out : Byte) (u : Option UnfinishedByte)
include h

theorem State.hears_clocked : (s.setPort p ((s.port p).clocked out u)).hears p := by
  rw [State.hears, State.port_setPort_self]
  exact h

/-- A parameter byte replaces data out and the byte in progress whatever they were (R189). -/
theorem State.byteEvent_clocked (d : Byte) : (s.setPort p ((s.port p).clocked out u)).byteEvent p d = s.byteEvent p d := by
  rw [State.byteEvent_of_hears h, State.byteEvent_of_hears (State.hears_clocked h out u), State.finish_setPort_left]
  simp only [State.paramByte, State.port_setPort_self, State.setPort_setPort]
  rfl

/-- So does a command byte (R187). -/
theorem State.commandValue_clocked (v : Byte) :
    (s.setPort p ((s.port p).clocked out u)).commandValue p v = s.commandValue p v := by
  have h' := State.hears_clocked h out u
  unfold State.commandValue
  cases Cmd.ofCode v with
  | none => simp only [State.unknownCommand, State.port_setPort_self, State.setPort_setPort, Port.commandByte_clocked]
  | some c =>
    dsimp only
    split
    · rw [State.atomicRow, State.atomicRow, if_neg (Bool.eq_false_iff.mp h), if_neg (Bool.eq_false_iff.mp h'),
        State.port_setPort_self, State.setPort_setPort, Port.atTaking_nil, Port.atTaking_nil, Port.commandByte_clocked]
    · rw [State.commandByte_of_hears h, State.commandByte_of_hears h', State.port_setPort_self, State.setPort_setPort,
        Port.startCommand_clocked]

theorem State.wholeByte_clocked (v : Byte) (mode : Bool) :
    (s.setPort p ((s.port p).clocked out u)).wholeByte p v mode = s.wholeByte p v mode := by
  cases mode with
  | true => exact State.byteEvent_clocked h out u v
  | false =>
    show State.finish _ _ = State.finish _ _
    rw [State.commandValue_clocked h, State.finish_setPort_left]

end WholeByte

/-! ### The rows of a byte (R187, R188) -/

theorem length_paramBytes {i : Instr} {p : PortId} {c : Cmd} (hc : i.command? = some (p, c)) :
    (paramBytes i).length = c.paramCount := by
  cases i <;> simp only [Instr.command?, Option.some.injEq, Prod.mk.injEq, reduceCtorEq] at hc <;> obtain ⟨rfl, rfl⟩ := hc
  all_goals simp [paramBytes, Cmd.paramCount, be16, be24, be32, phaseBytes]

theorem Cmd.paramCount_of_takenAtOnce {c : Cmd} (once : c.takenAtOnce = true) : c.paramCount = 0 :=
  beq_iff_eq.mp (Bool.and_eq_true_iff.mp once).2

/-- The row that stands for a command byte of this value: its command taken at once, begun, or unknown. -/
def CommandByteRow (p : PortId) (v : Byte) (i : Instr) : Prop :=
  (Cmd.ofCode v = none ∧ i = .unknownCommand p v)
    ∨ (∃ c, Cmd.ofCode v = some c ∧ c.takenAtOnce = false ∧ i = .commandByte p c)
    ∨ (∃ c, Cmd.ofCode v = some c ∧ c.takenAtOnce = true ∧ i.command? = some (p, c))

/-- The row of a command byte is the byte with mode low (R184, R187). -/
theorem exec_commandByteRow {s : State} {p : PortId} (h : s.hears p) {v : Byte} {i : Instr} (row : CommandByteRow p v i) :
    exec i s = .next (s.wholeByte p v false) := by
  have low : s.wholeByte p v false = s.finish (s.commandValue p v) := rfl
  rw [low, State.commandValue]
  rcases row with ⟨unknown, rfl⟩ | ⟨c, known, more, rfl⟩ | ⟨c, known, once, hc⟩
  · rw [exec_unknownCommand h unknown, unknown]
  · rw [known]
    dsimp only
    rw [exec_commandByte h more, more, if_neg Bool.false_ne_true, State.commandByte_of_hears h, State.finish_setPort]
  · have bytes : paramBytes i = [] :=
      List.eq_nil_of_length_eq_zero ((length_paramBytes hc).trans (Cmd.paramCount_of_takenAtOnce once))
    rw [known]
    dsimp only
    rw [exec_command hc, bytes, if_pos once]

/-! ### Clock edges (R184, R189) -/

theorem State.clockEdge_of_ignoring {s : State} {p : PortId} (deaf : (s.port p).ignoring = true) (dataIn mode : Bool) :
    s.clockEdge p dataIn mode = s := if_pos deaf

/-- A release of select after some edges of a byte does what it does without them (R185). -/
theorem exec_selectRelease_clockEdges {s : State} {p : PortId} (h : s.hears p) (fresh : (s.port p).unfinished = none) (d : Byte)
    (mode : Nat → Bool) {n : Nat} (n1 : 1 ≤ n) (n7 : n ≤ 7) :
    exec (.selectRelease p n) ((List.range n).foldl (fun t k => t.clockEdge p (d.getLsbD (7 - k)) (mode k)) s)
      = exec (.selectRelease p n) s := by
  rw [State.clockEdges s p d mode h fresh n n1 n7, exec_selectRelease _ p n7, exec_selectRelease s p n7,
    State.port_setPort_self, State.setPort_setPort, Port.release_received h fresh _ n1]

/-- Eight clock edges are the byte, whatever mode is before the last (R184). -/
theorem State.clockEdges_eq_wholeByte {s : State} {p : PortId} (h : s.hears p) (fresh : (s.port p).unfinished = none) (d : Byte)
    (mode : Nat → Bool) :
    (List.range 8).foldl (fun t k => t.clockEdge p (d.getLsbD (7 - k)) (mode k)) s = s.wholeByte p d (mode 7) :=
  (State.clockEdges_whole s p d mode h fresh).trans (State.wholeByte_clocked h ..)

section Late

variable {s : State} {p : PortId} (h : s.hears p) {first : List Bool}
  (late : (s.port p).unfinished = some { bits := first, reads := false }) (seven : first.length = 7)
  {b : Byte} {rest : List Byte}
  (loaded : (s.port p).framing = .response (b :: rest))
include h late seven loaded

/-- The last clock edge of a byte whose response was loaded after its first clock (R188, R189). -/
theorem State.clockEdge_late (dataIn mode : Bool) :
    s.clockEdge p dataIn mode
      = (s.setPort p ((s.port p).clocked (s.port p).dataOut none)).lateByte p (b8 (ofMsbFirst (first ++ [dataIn]))) mode := by
  have hears : (s.port p).ignoring = false := h
  simp [State.clockEdge, hears, Port.inProgress, Port.fixedOut, Port.unread, Port.clocked, late, seven, loaded]

theorem State.clockEdge_late_high (dataIn : Bool) :
    s.clockEdge p dataIn true = s.setPort p { s.port p with unfinished := none } :=
  State.clockEdge_late h late seven loaded dataIn true

theorem State.clockEdge_late_low (dataIn : Bool) {v : Byte} (value : b8 (ofMsbFirst (first ++ [dataIn])) = v) :
    s.clockEdge p dataIn false = (s.wholeByte p v false).setPort p
      { (s.wholeByte p v false).port p with dataOut := (s.port p).dataOut } := by
  rw [State.clockEdge_late h late seven loaded, value, State.lateByte, if_neg Bool.false_ne_true]
  dsimp only
  rw [State.wholeByte_clocked h, State.port_setPort_self, Port.clocked]

end Late

/-- Settles O7: the edges of a byte are `State.wholeByte`, and so is the byte's row. -/
theorem readoutAndSelect : Obligations.ReadoutAndSelect := by
  intro p s
  refine ⟨fun d b rest h unread => ?unread, fun d h quiet => ?quiet, fun d h waiting => ?waiting, ?edges⟩
  case unread => exact congrArg _ (State.byteEvent_response h unread d)
  case quiet =>
    rw [← Port.outByte_of_quiet quiet]
    exact congrArg _ (State.byteEvent_quiet h (quiet.imp_right (Or.imp_right .inl)) d)
  case waiting =>
    rw [← Port.outByte_of_waiting waiting]
    exact congrArg _ (State.byteEvent_quiet h (.inr (.inr (.inr waiting))) d)
  case edges =>
    intro out edges begun
    have fixed : out = (s.port p).fixedOut := by
      by_cases fresh : (s.port p).unfinished = none
      · exact (if_neg (not_not_intro fresh)).trans (Port.fixedOut_of_fresh fresh).symm
      · exact (if_pos fresh).trans (Port.fixedOut_of_begun fresh).symm
    refine ⟨fun bits le => ?select, fun _ _ => rfl, fun dataIn mode deaf => State.clockEdge_of_ignoring deaf dataIn mode,
      fun h fresh d mode => ⟨fun n n1 n7 => ?fewer, ?eight⟩,
      fun first dataIn b rest h late seven loaded =>
        ⟨State.clockEdge_late_high h late seven loaded dataIn, fun v value i row => ?late⟩⟩
    case select => rw [exec_selectRelease s p le, fixed, Port.release]
    case fewer =>
      have within : edges n d mode = _ := State.clockEdges s p d mode h fresh n n1 n7
      have received : begun n d = (s.port p).received ((List.range n).map (fun k => d.getLsbD (7 - k))) := by
        show Port.clocked _ out _ = _
        rw [fixed, Port.fixedOut_of_fresh fresh]
        rfl
      exact ⟨within.trans (congrArg _ received.symm), exec_selectRelease_clockEdges h fresh d mode n1 n7⟩
    case eight =>
      have whole : edges 8 d mode = s.wholeByte p d (mode 7) := State.clockEdges_eq_wholeByte h fresh d mode
      have low {i : Instr} (last : mode 7 = false) (row : CommandByteRow p d i) : exec i s = .next (edges 8 d mode) := by
        rw [whole, last, exec_commandByteRow h row]
      refine ⟨fun last => ?_, fun last unknown => low last (.inl ⟨unknown, rfl⟩),
        fun c last known more => low last (.inr (.inl ⟨c, known, more, rfl⟩)),
        fun c i last known once hc => low last (.inr (.inr ⟨c, known, once, hc⟩))⟩
      rw [whole, last]
      rfl
    case late =>
      have byte : b8 (ofMsbFirst (first ++ [dataIn])) = v :=
        byte_of_bits _ v (by rw [List.length_append, seven]; rfl) value
      exact ⟨s.wholeByte p v false, exec_commandByteRow h row, State.clockEdge_late_low h late seven loaded dataIn byte⟩

end Sys2Proof.Machine
end

section
/-! The row of an atomic command with parameter bytes, byte by byte (R187, R188). -/

namespace Sys2Proof.Machine

/-! ### Some rows in the queue -/

/-- The state with these commands waiting. -/
def State.queued (s : State) (l : List Instr) : State := { s with pending := l }

@[simp] theorem State.queued_port (s : State) (l : List Instr) : (s.queued l).port = s.port := rfl

theorem State.queued_setPort (s : State) (l : List Instr) (p : PortId) (q : Port) :
    (s.queued l).setPort p q = (s.setPort p q).queued l := rfl

theorem State.hears.queued {s : State} {p : PortId} (h : s.hears p) (l : List Instr) : (s.queued l).hears p := h

theorem State.hears_setPort {s : State} {p : PortId} {q : Port} (hears : q.ignoring = false) : (s.setPort p q).hears p := by
  rwa [State.hears, State.port_setPort_self]

theorem runSteps_cons {s t : State} {c : Instr} {l : List Instr} (e : exec c (s.queued l) = .next t) (k : Nat) :
    runSteps (k + 1) (s.queued (c :: l)) = runSteps k t := by
  have front : step (s.queued (c :: l)) = .next t := e
  rw [runSteps, front]

/-! ### The bytes of a command in PARAMS -/

/-- The port in PARAMS with some bytes of a command received (R187). -/
def Port.collecting (q : Port) (c : Cmd) (received : List Byte) : Port := { q with framing := .params c received }

section Params

variable {s : State} {p : PortId} {c : Cmd} {received : List Byte} (h : s.hears p)
  (collecting : (s.port p).framing = .params c received)
include h collecting

/-- A parameter byte that does not complete the command (R187). -/
theorem State.byteEvent_param (short : received.length + 1 < c.paramCount) (d : Byte) :
    s.byteEvent p d = s.setPort p ((s.port p).complete.collecting c (received ++ [d])) := by
  rw [State.byteEvent_of_hears h]
  simp [State.paramByte, collecting, short, Port.outByte, Port.complete, Port.collecting, State.finish_setPort]

/-- The last parameter byte, at which the command is taken (R188). -/
theorem State.byteEvent_lastParam (last : received.length + 1 = c.paramCount) (d : Byte) :
    s.byteEvent p d
      = s.finish ((s.setPort p (s.port p).complete).takeAtomic p c (carryOut c p (received ++ [d]))) := by
  rw [State.byteEvent_of_hears h]
  simp [State.paramByte, collecting, ← last, Port.outByte, Port.complete]

end Params

theorem Port.collects_of_params {q : Port} {c : Cmd} {received more : List Byte} (collecting : q.framing = .params c received)
    (some_ : more ≠ []) : q.collects c (received ++ more) = true := by
  refine (q.collects_iff c _).mpr ⟨received, collecting, List.isPrefixOf_iff_prefix.mpr ⟨more, rfl⟩, ?_⟩
  rw [List.length_append]
  exact Nat.lt_add_of_pos_right (List.length_pos_iff.mpr some_)

/-! ### The row and its bytes -/

section Row

variable {i : Instr} {p : PortId} {c : Cmd} (hc : i.command? = some (p, c))
include hc

/-- The row reads its port at the taking only. -/
theorem exec_setPort_of_atTaking {s : State} (h : s.hears p) {q : Port} (hears : q.ignoring = false)
    (same : q.atTaking c (paramBytes i) = (s.port p).atTaking c (paramBytes i)) : exec i (s.setPort p q) = exec i s := by
  rw [exec_of_hears hc h, exec_of_hears hc (State.hears_setPort hears), State.port_setPort_self, State.setPort_setPort,
    State.finish_setPort_left, same]

/-- The bytes still to come on a port that collects the command do what the row does (R188; log entry 3). -/
theorem runSteps_params (rest : List Instr) (more : List Byte) :
    ∀ {s : State} {received : List Byte}, s.hears p → (s.port p).framing = .params c received → more ≠ [] →
      received ++ more = paramBytes i →
      runSteps more.length (s.queued (more.map (Instr.readoutByte p) ++ rest)) = exec i (s.queued rest) := by
  induction more with
  | nil => intro s received _ _ some_ _; exact absurd rfl some_
  | cons d more ih =>
    intro s received h collecting some_ whole
    have count : received.length + (more.length + 1) = c.paramCount := by
      rw [← length_paramBytes hc, ← whole, List.length_append, List.length_cons]
    have taken : (s.port p).atTaking c (paramBytes i) = (s.port p).complete := by
      rw [← whole]
      exact Port.atTaking_of_collects (Port.collects_of_params collecting some_)
    rw [List.length_cons, List.map_cons, List.cons_append, runSteps_cons rfl]
    by_cases last : more = []
    · subst last
      have byte := State.byteEvent_lastParam (h.queued rest) collecting count d
      have row := exec_of_hears hc (h.queued rest)
      rw [State.queued_port, taken] at row
      rw [whole] at byte
      exact (congrArg _ byte).trans row.symm
    · have short : received.length + 1 < c.paramCount := by
        have := List.length_pos_iff.mpr last
        omega
      have whole' : received ++ [d] ++ more = paramBytes i := by rw [List.append_assoc, List.singleton_append, whole]
      have further := State.byteEvent_param (h.queued (more.map (Instr.readoutByte p) ++ rest)) collecting short d
      have later := ih (s := s.setPort p ((s.port p).complete.collecting c (received ++ [d]))) (State.hears_setPort h)
        (congrArg Port.framing (State.port_setPort_self ..)) last whole'
      rw [further, State.queued_port, State.queued_setPort, later, ← State.queued_setPort]
      refine exec_setPort_of_atTaking hc (h.queued rest) h ?_
      rw [State.queued_port, taken, ← whole', Port.atTaking_of_collects (Port.collects_of_params rfl last)]
      rfl

/-- The command byte and the bytes do what the row does on a port that does not collect the command (R187, R188). -/
theorem runSteps_commandByte (params : c.paramCount ≠ 0) (rest : List Instr) {s : State} (h : s.hears p)
    (idle : (s.port p).collects c (paramBytes i) = false) :
    runSteps (1 + (paramBytes i).length) (s.queued (.commandByte p c :: (paramBytes i).map (Instr.readoutByte p) ++ rest))
      = exec i (s.queued rest) := by
  have some_ : paramBytes i ≠ [] := fun none_ => params (by rw [← length_paramBytes hc, none_, List.length_nil])
  have more : c.takenAtOnce = false := by
    rw [Cmd.takenAtOnce, beq_false_of_ne params, Bool.and_false]
  have begun : (s.port p).startCommand p c = (s.port p).commandByte.collecting c [] :=
    Port.startCommand_params _ p (fun wtxt => params (wtxt ▸ rfl)) (fun pwire => params (pwire ▸ rfl))
  have collects : ((s.port p).commandByte.collecting c []).collects c (paramBytes i) = true :=
    Port.collects_of_params (received := []) rfl some_
  have later := runSteps_params hc rest (paramBytes i) (s := s.setPort p ((s.port p).commandByte.collecting c []))
    (State.hears_setPort h) (congrArg Port.framing (State.port_setPort_self ..)) some_ rfl
  rw [Nat.add_comm, List.cons_append, runSteps_cons (exec_commandByte (h.queued _) more), State.queued_port, begun,
    State.queued_setPort, later, ← State.queued_setPort]
  refine exec_setPort_of_atTaking hc (h.queued rest) h ?_
  rw [State.queued_port, Port.atTaking_of_not_collects some_ idle, Port.atTaking_of_collects collects]
  rfl

end Row

/-- Settles O8, by induction on the bytes still to come. -/
theorem rowIsItsBytes : Obligations.RowIsItsBytes := by
  intro i p c s rest hc params h bytes queued
  refine ⟨fun received collecting begun short => ?_,
    fun idle => runSteps_commandByte hc params rest h ((Port.collects_eq_false_iff ..).mpr idle)⟩
  obtain ⟨more, whole⟩ := List.isPrefixOf_iff_prefix.mp begun
  have left : bytes.drop received.length = more := by rw [← whole, List.drop_left]
  have count : bytes.length - received.length = more.length := by rw [← left, List.length_drop]
  have some_ : more ≠ [] := by
    rintro rfl
    rw [← whole, List.append_nil] at short
    exact absurd short (Nat.lt_irrefl _)
  rw [left, count]
  exact runSteps_params hc rest more h collecting some_ whole

end Sys2Proof.Machine
end

section
/-! STAT and NOTE at their taking (R192, R194), and the posting of a notice (R193). -/

namespace Sys2Proof.Machine

/-! ### The posting of a notice (R193) -/

theorem Port.enqueue_of_room {q : Port} (room : q.queue.length < 16) (n : Notice) :
    q.enqueue n = { q with queue := q.queue ++ [n] } := if_pos room

theorem Port.enqueue_of_full {q : Port} (full : 16 ≤ q.queue.length) (n : Notice) : q.enqueue n = { q with lost := true } :=
  if_neg (Nat.not_lt.mpr full)

theorem State.post_of_full {s : State} {p : PortId} (full : 16 ≤ (s.port p).queue.length) (n : Notice) :
    s.post p n = s.setPort p { s.port p with lost := true } := by
  rw [State.post, Port.enqueue_of_full full]

/-- A notice to all ports is placed in each queue apart (R193). -/
theorem State.postAll_eq (s : State) (n : Notice) :
    s.postAll n = (((s.post .ha n).post .hb n).post .cc n).post .mh n := rfl

theorem Port.attention_iff (q : Port) : q.attention = true ↔ q.queue ≠ [] := by
  rw [Port.attention, Bool.not_eq_true', List.isEmpty_eq_false_iff]

/-- Settles O11. -/
theorem postingFillsTheQueue : Obligations.PostingFillsTheQueue := fun s n =>
  ⟨fun p room => by rw [State.post, Port.enqueue_of_room room], fun _ full => State.post_of_full full n,
    State.postAll_eq s n, fun p => (s.port p).attention_iff⟩

/-! ### STAT (R192) -/

theorem exec_stat (p : PortId) (s : State) :
    exec (.stat p) s = .next (s.finish (s.atomicRow p .stat (paramBytes (.stat p)) (doStat p))) := rfl

/-- The bytes of STAT at its taking: all but the previous-result are as before the command byte. -/
theorem State.statData_taking (s : State) (p : PortId) :
    (s.taking (.stat p)).statData p
      = [b8 p.code, ((s.taking (.stat p)).port p).previous.byte, b8 (s.port p).queue.length, flag8 (s.port p).lost,
         b8 s.hold.reasons.code, flag8 s.hold.enable, b8 ((p.head?.map fun h => (s.feed h).state.code).getD 0),
         b8 ((p.head?.map fun h => (s.feed h).tickets.length).getD 0)] := by
  obtain ⟨-, queue, lost, -⟩ := (s.port p).atTaking_frame .stat (paramBytes (.stat p))
  have port : (s.taking (.stat p)).port p = (s.port p).atTaking .stat (paramBytes (.stat p)) := State.port_setPort_self ..
  simp only [State.statData, port, queue, lost, State.taking_hold, State.taking_feed, Option.map_map, Function.comp_def]

/-- Settles O9. -/
theorem statReportsThePort : Obligations.StatReportsThePort := by
  intro p s h
  refine ⟨Answers.of_carryOut (f := doStat p) rfl (exec_stat p s) h rfl ?_, fun n full => ?_⟩
  · rw [doStat, State.statData_taking]
    cases p <;> rfl
  · rw [State.post_of_full full, State.port_setPort_self]

/-! ### NOTE (R194) -/

theorem exec_note (p : PortId) (k : Byte) (s : State) :
    exec (.note p k) s = .next (s.finish (s.atomicRow p .note (paramBytes (.note p k)) (doNote p k.toNat))) := rfl

theorem doNote_of_range {k : Nat} (bad : k < 1 ∨ 16 < k) (p : PortId) (s : State) : doNote p k s = s.refuse p .range :=
  if_pos (bad.imp_left Nat.lt_one_iff.mp)

theorem doNote_removes {k : Nat} (k1 : 1 ≤ k) (k16 : k ≤ 16) (p : PortId) (s : State) :
    doNote p k s
      = (s.setPort p { s.port p with queue := (s.port p).queue.drop k }).respond p .ok (min k (s.port p).queue.length)
          (((s.port p).queue.take k).flatMap Notice.bytes
            ++ List.replicate (8 * (k - (s.port p).queue.length)) 0) := by
  have left : k - min k (s.port p).queue.length = k - (s.port p).queue.length := by omega
  rw [doNote, if_neg (by omega)]
  simp only [List.length_take, left]

/-- Every notice begins with its kind, which is not zero (section 11.8). -/
theorem Notice.body_eq_cons (n : Notice) : ∃ kind rest, n.body = kind :: rest ∧ kind ≠ 0 := by
  cases n <;> exact ⟨_, _, rfl, by decide⟩

theorem Notice.length_bytes (n : Notice) : n.bytes.length = 8 := by
  rw [Notice.bytes, List.length_take, List.length_append, List.length_replicate]
  omega

theorem Notice.head_bytes_ne_zero (n : Notice) : n.bytes.head? ≠ some 0 := by
  obtain ⟨kind, rest, body, kind0⟩ := n.body_eq_cons
  rw [Notice.bytes, body]
  exact fun zero => kind0 (Option.some.inj zero)

/-- Settles O10. -/
theorem noteRemovesTheOldest : Obligations.NoteRemovesTheOldest := by
  intro p k s h
  have port : (s.taking (.note p k)).port p = (s.port p).atTaking .note [k] := State.port_setPort_self ..
  refine ⟨fun bad => Refuses.of_carryOut rfl (exec_note p k s) h rfl (doNote_of_range bad p _), fun k1 k16 => ?_,
    fun n => ⟨n.length_bytes, n.head_bytes_ne_zero⟩⟩
  refine Answers.of_carryOut rfl (exec_note p k s) h rfl ?_
  rw [doNote_removes k1 k16, port, Port.atTaking_queue]

end Sys2Proof.Machine
end

section
/-! The laws of the part in the state after reset (R64, R115, R156, R196): the release of RST with every line at rest. -/

namespace Sys2Proof.Machine

/-- The lines at rest: HOLDIN and PNLRDY inactive, WIN low, every select released (log entry 1). -/
def linesAtRest : LineLevels :=
  { holdin := false, pnlrdy := false, winA := false, winB := false, selHA := false, selHB := false, selCC := false,
    selMH := false }

theorem State.reset_eq_released : State.reset = State.released linesAtRest [] := rfl

section Released

variable (lines : LineLevels) (pending : List Instr)

theorem State.released_feedLaw : (State.released lines pending).feedLaw := by
  intro h
  rw [State.released_feed]
  exact ⟨Nat.le_refl _, by decide, Nat.zero_le _, List.nodup_nil, nofun, by decide, nofun, nofun⟩

theorem State.released_guardLaw : (State.released lines pending).guardLaw := by
  rw [State.guardLaw, State.released_feed]
  nofun

theorem State.released_screenLaw : (State.released lines pending).screenLaw :=
  (State.screenLaw_iff _).mpr (Screen.law_released ..)

end Released

/-- Settles O52: no law that a step keeps fails at the release of RST. -/
theorem lawsHoldAtReset : Obligations.LawsHoldAtReset := by
  unfold Obligations.LawsHoldAtReset
  rw [State.reset_eq_released]
  exact ⟨State.keeps_holdLaw.rst _ _, State.keeps_queueLaw.rst _ _, State.released_feedLaw _ _, State.released_guardLaw _ _,
    State.keeps_mapLaw.rst _ _, State.released_timerLaw _ _, State.released_bondLaw _ _, State.released_screenLaw _ _,
    State.keeps_storeLaw.rst _ _, State.keeps_serialLaw.rst _ _, State.released_regionLaw _ _⟩

end Sys2Proof.Machine
end
